-- ==== Sys2Proof/Word.lean ====
section
/-! DEFINITION. The bit vectors of the CORE: a line level (R9), a byte (R8). -/

namespace Sys2Proof

/-- A level on a line or a line output: 0 (driven low) or 1 (released), R9. -/
abbrev Level := BitVec 1

/-- A byte: a wire byte (R71), a segment pattern (R82) or a character code (R83). -/
abbrev Byte := BitVec 8

end Sys2Proof
end

