-- ==== Sys2Proof/Config.lean ====
section
/-! DEFINITION. What is fixed for the hardware: the parameters of R5, the open parameters of R6 and
the free value of the data line. Nothing here is state (R38). -/

namespace Sys2Proof.Config

/-! ### Constants the source fixes (R5) -/

/-- `T_COND`: hold after each edge of START and STOP. -/
abbrev tCond : Nat := 300
/-- `T_BIT_GAP`: wait at the top of each data bit. -/
abbrev tBitGap : Nat := 200
/-- `T_DATA_SETUP`: wait between driving data and raising clock. -/
abbrev tDataSetup : Nat := 100
/-- `T_CLK_HIGH`: clock-high time of a data bit. -/
abbrev tClkHigh : Nat := 300
/-- `T_ACK_SETUP`: wait before the ack sample. -/
abbrev tAckSetup : Nat := 300
/-- `T_ACK_HIGH`: clock-high time of the ack clock. -/
abbrev tAckHigh : Nat := 600
/-- `T_ACK_HOLD`: wait after the ack clock falls. -/
abbrev tAckHold : Nat := 300
/-- `T_TRAIL`: trailing settle time of every byte. -/
abbrev tTrail : Nat := 300
/-- `T_INIT_SETTLE`: settle time that ends initialization. -/
abbrev tInitSettle : Nat := 10000

/-- The closed set of wait values (R5, R10). -/
def waitLabels : List Nat := [100, 200, 300, 600, 10000]

/-- `CMD_UNBLANK` (R72). -/
abbrev cmdUnblank : Byte := 0x8F
/-- `CMD_BLANK` (R73). -/
abbrev cmdBlank : Byte := 0x80
/-- `CMD_AUTOINC` (R74). -/
abbrev cmdAutoinc : Byte := 0x40
/-- `CMD_START_ADDR` (R75). -/
abbrev cmdStartAddr : Byte := 0xC0
/-- `CMD_BRIGHT_BASE` (R76). -/
abbrev cmdBrightBase : Byte := 0x88
/-- `DOT_BIT`: bit 7 of a segment pattern (R82). -/
abbrev dotBit : Byte := 0x80
/-- The character code of the decimal point. PRESUMED ASCII (R83, log 10). -/
abbrev dotChar : Byte := 0x2E

/-! ### Open parameters (R6) -/

/-- `CYCLES_PER_US`, OPEN (D3): no rule of the model depends on it (log 18). -/
opaque cyclesPerUs : Nat

/-- `TEXT_MAX`, OPEN (D6): no rule of the model depends on it (log 18). -/
opaque textMax : Nat

/-! ### The free value of the data line -/

/-- `sda_i` at the `n`-th SAMPLE: a free draw of the environment (R23, U1). It has no body, so
nothing is known of it (log 1). -/
opaque sdaIn : Nat → Level

end Sys2Proof.Config
end

