-- ==== Sys2Proof/Machine/FontRom.lean ====
section
/-! DEFINITION. The segment pattern (R82), and the font ROM (R51, R150 to R153): the key set, the default
contents and the read of one cell. The ROM is a cell list in canonical form: addresses strictly rising, and a code that is not listed
reads `none`. Nothing writes it. -/

namespace Sys2Proof.Machine

/-- The segments of a digit (R82). Where a segment sits on the digit is not in the source (N11), and no definition
depends on it. -/
inductive DigitSegment where
  | a | b | c | d | e | f | g | decimalPoint
deriving DecidableEq, Repr

/-- The segments in the order of their bits (R82). -/
def DigitSegment.all : List DigitSegment := [.a, .b, .c, .d, .e, .f, .g, .decimalPoint]

/-- The bit of a segment in a pattern (R82). -/
def DigitSegment.bit : DigitSegment → Nat
  | .a => 0
  | .b => 1
  | .c => 2
  | .d => 3
  | .e => 4
  | .f => 5
  | .g => 6
  | .decimalPoint => 7

/-- A bit that is 1 lights its segment (R82). -/
def lights (pattern : Byte) (seg : DigitSegment) : Bool := pattern.getLsbD seg.bit

/-- The key set of the ROM (R151): 36 codes in rising order. The codes are ASCII, PRESUMED (log 10). -/
def fontKeys : List Byte :=
  [0x20, 0x2D, 0x2E,
   0x30, 0x31, 0x32, 0x33, 0x34, 0x35, 0x36, 0x37, 0x38, 0x39,
   0x3D,
   0x41, 0x43, 0x44, 0x45, 0x46, 0x48, 0x49, 0x4A, 0x4C, 0x50, 0x59,
   0x62, 0x63, 0x64, 0x68, 0x69, 0x6C, 0x6E, 0x6F, 0x72, 0x74, 0x75]

/-- Space, minus, decimal point, digits and equals of the default ROM (R152). -/
def fontRomDigits : List Host.Cell :=
  [(0x20, 0x00), (0x2D, 0x40), (0x2E, 0x80),
   (0x30, 0x3F), (0x31, 0x06), (0x32, 0x5B), (0x33, 0x4F), (0x34, 0x66),
   (0x35, 0x6D), (0x36, 0x7D), (0x37, 0x07), (0x38, 0x7F), (0x39, 0x6F),
   (0x3D, 0x48)]

/-- The upper-case letters of the default ROM (R152). -/
def fontRomUpper : List Host.Cell :=
  [(0x41, 0x77), (0x43, 0x39), (0x44, 0x5E), (0x45, 0x79), (0x46, 0x71), (0x48, 0x76),
   (0x49, 0x30), (0x4A, 0x1E), (0x4C, 0x38), (0x50, 0x73), (0x59, 0x6E)]

/-- The lower-case letters of the default ROM (R152). -/
def fontRomLower : List Host.Cell :=
  [(0x62, 0x7C), (0x63, 0x58), (0x64, 0x5E), (0x68, 0x74), (0x69, 0x10), (0x6C, 0x30),
   (0x6E, 0x54), (0x6F, 0x5C), (0x72, 0x50), (0x74, 0x78), (0x75, 0x1C)]

/-- The default contents of the parameter FONT_ROM (R152), in the canonical form of a cell list: the value that
`State.reset` gives the field `rom`, from which every operation reads (log 9). The patterns other
than the decimal point's are PRESUMED: the spec marks them as general knowledge (log 9). -/
def fontRom : List Host.Cell := fontRomDigits ++ fontRomUpper ++ fontRomLower

/-- `FONT[c]` (R51, R150): the pattern of the character code, or `none` where it is no key. A read has no
side effect (R57 a). -/
def romRead : List Host.Cell → Byte → Option Byte
  | [], _ => none
  | (a, p) :: rest, c => if a = c.toNat then some p else romRead rest c

/-- The canonical form of a cell list: its addresses rise strictly. -/
def Memory.wf : List Host.Cell → Bool
  | [] => true
  | [_] => true
  | (a, _) :: (b, q) :: rest => decide (a < b) && Memory.wf ((b, q) :: rest)

end Sys2Proof.Machine
end

