-- ==== Sys2Proof/Syntax.lean ====
section
/-! DEFINITION. Syntax: the operations of `spec/opcode_table.json`, one constructor a row, and the four
micro-operations (R10) as the type that programs (R39) are lists of. -/

namespace Sys2Proof

/-- A micro-operation (R10). A program (R39) is a list of these. -/
inductive MicroOp where
  /-- Drive the data line output to `v`. -/
  | sda (v : Level)
  /-- Drive the clock line output to `v`. -/
  | scl (v : Level)
  /-- Let at least `n` microseconds pass. -/
  | wait (n : Nat)
  /-- `ack <- sda_i`. -/
  | sample
deriving DecidableEq, Repr

/-- The operations of the CORE, one constructor for each row of the opcode table. -/
inductive Instr where
  /-- Wire byte 0x8F (R131). -/
  | unblank
  /-- Wire byte 0x80 (R132). -/
  | blank
  /-- Wire byte 0x40 (R133). -/
  | setAutoinc
  /-- Wire byte `0x88 | b`, `b = level - 1` (R134). -/
  | brightnessByte (b : BitVec 3)
  /-- Wire byte 0xC0, the head of a text frame (R135). -/
  | setStartAddr
  /-- A data byte that is not the last of its frame (R136). -/
  | data (d : Byte)
  /-- The last data byte of a frame (R136). -/
  | dataLast (d : Byte)
  /-- The initialization sequence (R137). -/
  | initSeq
  /-- The three-way choice of the brightness command (R140). -/
  | brightSelect (level : Int)
  /-- The five-byte text frame (R142). -/
  | textFrame (d0 d1 d2 d3 : Byte)
  /-- Host command SET_BRIGHTNESS (R172); `level` is the port's two's-complement value (R86). -/
  | setBrightness (level : BitVec 8)
  /-- Host command SET_TEXT (R175). -/
  | setText (text : List Byte)
  /-- Initialization, started by reset (R171). -/
  | init
  /-- Transmission of one byte (R110). -/
  | sendByte (v : Byte) (withStart withStop : BitVec 1)
  /-- Transmission of one data bit (R111). -/
  | bit (b : Level)
  /-- The acknowledgement phase (R114). -/
  | ackPhase
  /-- The start condition (R101). -/
  | start
  /-- The stop condition (R102). -/
  | stop
  /-- Micro-op SDA(v) (R10). -/
  | sda (v : Level)
  /-- Micro-op SCL(v) (R10). -/
  | scl (v : Level)
  /-- Micro-op WAIT(n) (R10). -/
  | wait (n : Nat)
  /-- Micro-op SAMPLE (R10). -/
  | sample
  /-- Font ROM lookup of a character code (R150). -/
  | encode (c : Byte)
  /-- Assembly of a text into the DigitBuffer (R154). -/
  | assemble (text : List Byte)
  /-- Font ROM cell of `0`, code 0x30 (R152). -/
  | font0
  /-- Font ROM cell of `1`, code 0x31 (R152). -/
  | font1
  /-- Font ROM cell of `2`, code 0x32 (R152). -/
  | font2
  /-- Font ROM cell of `3`, code 0x33 (R152). -/
  | font3
  /-- Font ROM cell of `4`, code 0x34 (R152). -/
  | font4
  /-- Font ROM cell of `5`, code 0x35 (R152). -/
  | font5
  /-- Font ROM cell of `6`, code 0x36 (R152). -/
  | font6
  /-- Font ROM cell of `7`, code 0x37 (R152). -/
  | font7
  /-- Font ROM cell of `8`, code 0x38 (R152). -/
  | font8
  /-- Font ROM cell of `9`, code 0x39 (R152). -/
  | font9
  /-- Font ROM cell of `A`, code 0x41 (R152). -/
  | font_A
  /-- Font ROM cell of `b`, code 0x62 (R152). -/
  | font_b
  /-- Font ROM cell of `C`, code 0x43 (R152). -/
  | font_C
  /-- Font ROM cell of `c`, code 0x63 (R152). -/
  | font_c
  /-- Font ROM cell of `D`, code 0x44 (R152). -/
  | font_D
  /-- Font ROM cell of `d`, code 0x64 (R152). -/
  | font_d
  /-- Font ROM cell of `E`, code 0x45 (R152). -/
  | font_E
  /-- Font ROM cell of `F`, code 0x46 (R152). -/
  | font_F
  /-- Font ROM cell of `H`, code 0x48 (R152). -/
  | font_H
  /-- Font ROM cell of `h`, code 0x68 (R152). -/
  | font_h
  /-- Font ROM cell of `I`, code 0x49 (R152). -/
  | font_I
  /-- Font ROM cell of `i`, code 0x69 (R152). -/
  | font_i
  /-- Font ROM cell of `J`, code 0x4A (R152). -/
  | font_J
  /-- Font ROM cell of `L`, code 0x4C (R152). -/
  | font_L
  /-- Font ROM cell of `l`, code 0x6C (R152). -/
  | font_l
  /-- Font ROM cell of `n`, code 0x6E (R152). -/
  | font_n
  /-- Font ROM cell of `o`, code 0x6F (R152). -/
  | font_o
  /-- Font ROM cell of `P`, code 0x50 (R152). -/
  | font_P
  /-- Font ROM cell of `r`, code 0x72 (R152). -/
  | font_r
  /-- Font ROM cell of `t`, code 0x74 (R152). -/
  | font_t
  /-- Font ROM cell of `u`, code 0x75 (R152). -/
  | font_u
  /-- Font ROM cell of `Y`, code 0x59 (R152). -/
  | font_Y
  /-- Font ROM cell of space, code 0x20 (R152). -/
  | fontSpace
  /-- Font ROM cell of `-`, code 0x2D (R152). -/
  | fontMinus
  /-- Font ROM cell of `=`, code 0x3D (R152). -/
  | fontEquals
  /-- Font ROM cell of `.`, code 0x2E (R152). -/
  | fontDot
deriving DecidableEq, Repr

/-- The instruction that a micro-op of a program is. -/
def MicroOp.toInstr : MicroOp → Instr
  | .sda v => .sda v
  | .scl v => .scl v
  | .wait n => .wait n
  | .sample => .sample

/-- The encoded things that select an operation, one constructor for each format of R70 (the formats PAT,
ST and RS encode data, not operations). The interface that carries a word names its format: the bits alone
do not (a byte 0x40 is a command at the head of a frame and data inside it, R78). -/
inductive Encoded where
  /-- Format `W`: a wire command byte. -/
  | w (b : Byte)
  /-- Format `WD`: a wire data byte; `last` says whether it is byte 5 of its frame or byte 2 to 4. -/
  | wd (last : Bool) (d : Byte)
  /-- Format `FRAME`: the bytes between one START and the next STOP, in sending order. -/
  | frame (bytes : List Byte)
  /-- Format `CHAR`: a character code, the font ROM address. -/
  | char (c : Byte)
  /-- Format `H`: the host command port, `cmd_op` and its operands (R86); `cmd_len` is the text's length. -/
  | h (op : BitVec 1) (level : BitVec 8) (text : List Byte)
  /-- Format `P`: a SEND_BYTE request (withStop, withStart, value), R87. -/
  | p (request : BitVec 10)
  /-- Format `L`: a line controller request, R87. -/
  | l (request : BitVec 1)
  /-- A word of `nbits` bits that has the width of no format. -/
  | unknown (nbits word : Nat)
deriving DecidableEq, Repr

end Sys2Proof
end

