-- ==== Sys2Proof/Decode.lean ====
section
/-! DEFINITION. Decode, total on every encoded word and rejecting by name, and the encoder, both written
from the tables of `30_encoding.md`. -/

namespace Sys2Proof

/-- Why a word is no operation of its format. -/
inductive DecodeError where
  /-- Format `W`: the byte is none of the command bytes of R71 (U9). -/
  | notACommandByte (b : Byte)
  /-- Format `FRAME`: the bytes are neither a single-byte frame nor a text frame (R78). -/
  | notAFrame (bytes : List Byte)
  /-- The word has the width of no format of R70. -/
  | noSuchFormat (nbits word : Nat)
deriving DecidableEq, Repr

/-- Format `W` (R71 to R77): the whole byte is matched. 0x8F is UNBLANK, the row without an operand
(R77, log 13). -/
def decodeW (b : Byte) : Except DecodeError Instr :=
  if b = 0x8F then .ok .unblank
  else if b = 0x80 then .ok .blank
  else if b = 0x40 then .ok .setAutoinc
  else if b = 0xC0 then .ok .setStartAddr
  else if b.extractLsb' 3 5 = 0b10001 then .ok (.brightnessByte (b.extractLsb' 0 3))
  else .error (.notACommandByte b)

/-- Format `WD` (R70, R136): any byte, told apart by its position in the frame. -/
def decodeWD (last : Bool) (d : Byte) : Instr := if last then .dataLast d else .data d

/-- Format `FRAME` (R78): a text frame is SET_START_ADDR and four data bytes; a single-byte frame is one
of the commands that stand alone, which SET_START_ADDR never does (C4). -/
def decodeFrame : List Byte → Except DecodeError Instr
  | [b] => if b = 0xC0 then .error (.notAFrame [b]) else decodeW b
  | [b, d0, d1, d2, d3] =>
    if b = 0xC0 then .ok (.textFrame d0 d1 d2 d3) else .error (.notAFrame [b, d0, d1, d2, d3])
  | bytes => .error (.notAFrame bytes)

/-- The digit keys and the other keys of the font ROM with their codes (R152). -/
def fontCodesDigits : List (Byte × Instr) :=
  [(0x20, .fontSpace), (0x2D, .fontMinus), (0x2E, .fontDot), (0x30, .font0), (0x31, .font1),
   (0x32, .font2), (0x33, .font3), (0x34, .font4), (0x35, .font5), (0x36, .font6),
   (0x37, .font7), (0x38, .font8), (0x39, .font9), (0x3D, .fontEquals)]

/-- The upper-case letter keys of the font ROM with their codes (R152). -/
def fontCodesUpper : List (Byte × Instr) :=
  [(0x41, .font_A), (0x43, .font_C), (0x44, .font_D), (0x45, .font_E), (0x46, .font_F),
   (0x48, .font_H), (0x49, .font_I), (0x4A, .font_J), (0x4C, .font_L), (0x50, .font_P),
   (0x59, .font_Y)]

/-- The lower-case letter keys of the font ROM with their codes (R152). -/
def fontCodesLower : List (Byte × Instr) :=
  [(0x62, .font_b), (0x63, .font_c), (0x64, .font_d), (0x68, .font_h), (0x69, .font_i),
   (0x6C, .font_l), (0x6E, .font_n), (0x6F, .font_o), (0x72, .font_r), (0x74, .font_t),
   (0x75, .font_u)]

/-- The 36 rows FONT_x of the opcode table with their codes (R152). -/
def fontCodes : List (Byte × Instr) := fontCodesDigits ++ fontCodesUpper ++ fontCodesLower

/-- The row of a character code in a list of font rows. -/
def fontRow : List (Byte × Instr) → Byte → Option Instr
  | [], _ => none
  | (k, i) :: rest, c => if k = c then some i else fontRow rest c

/-- Format `CHAR` (R83, R150): every code is legal; a key's code is the key's own row FONT_x, any other
code is the general ENCODE (log 13). -/
def decodeChar (c : Byte) : Instr := (fontRow fontCodes c).getD (.encode c)

/-- Format `H` (R86): `cmd_op` 0 is SET_BRIGHTNESS, 1 is SET_TEXT. -/
def decodeH (op : BitVec 1) (level : BitVec 8) (text : List Byte) : Instr :=
  if op = 0 then .setBrightness level else .setText text

/-- Format `P` (R87): bit 9 withStop, bit 8 withStart, bits 7..0 the value. -/
def decodeP (r : BitVec 10) : Instr :=
  .sendByte (r.extractLsb' 0 8) (r.extractLsb' 8 1) (r.extractLsb' 9 1)

/-- Format `L` (R87): 0 START, 1 STOP. -/
def decodeL (r : BitVec 1) : Instr := if r = 0 then .start else .stop

/-- The operation an encoded word selects, or the reason why it selects none. -/
def decode : Encoded → Except DecodeError Instr
  | .w b => decodeW b
  | .wd last d => .ok (decodeWD last d)
  | .frame bytes => decodeFrame bytes
  | .char c => .ok (decodeChar c)
  | .h op level text => .ok (decodeH op level text)
  | .p r => .ok (decodeP r)
  | .l r => .ok (decodeL r)
  | .unknown nbits word => .error (.noSuchFormat nbits word)

/-! ### The encoder -/

/-- The wire byte of BRIGHTNESS_BYTE (R76): `b` in bits 2..0 of 0x88. -/
def brightByte (b : BitVec 3) : Byte := 0b10001#5 ++ b

/-- The word of an operation in its row's format. The rows of format `none` and `uop` have no encoding.
A host command puts zero on the operand port it does not use. -/
def encode : Instr → Option Encoded
  | .unblank => some (.w 0b10001111)
  | .blank => some (.w 0b10000000)
  | .setAutoinc => some (.w 0b01000000)
  | .brightnessByte b => some (.w (brightByte b))
  | .setStartAddr => some (.w 0b11000000)
  | .data d => some (.wd false d)
  | .dataLast d => some (.wd true d)
  | .initSeq => none
  | .brightSelect _ => none
  | .textFrame d0 d1 d2 d3 => some (.frame [0b11000000, d0, d1, d2, d3])
  | .setBrightness level => some (.h 0 level [])
  | .setText text => some (.h 1 0 text)
  | .init => none
  | .sendByte v withStart withStop => some (.p (withStop ++ withStart ++ v))
  | .bit _ => none
  | .ackPhase => none
  | .start => some (.l 0)
  | .stop => some (.l 1)
  | .sda _ => none
  | .scl _ => none
  | .wait _ => none
  | .sample => none
  | .encode c => some (.char c)
  | .assemble _ => none
  | .font0 => some (.char 0x30)
  | .font1 => some (.char 0x31)
  | .font2 => some (.char 0x32)
  | .font3 => some (.char 0x33)
  | .font4 => some (.char 0x34)
  | .font5 => some (.char 0x35)
  | .font6 => some (.char 0x36)
  | .font7 => some (.char 0x37)
  | .font8 => some (.char 0x38)
  | .font9 => some (.char 0x39)
  | .font_A => some (.char 0x41)
  | .font_b => some (.char 0x62)
  | .font_C => some (.char 0x43)
  | .font_c => some (.char 0x63)
  | .font_D => some (.char 0x44)
  | .font_d => some (.char 0x64)
  | .font_E => some (.char 0x45)
  | .font_F => some (.char 0x46)
  | .font_H => some (.char 0x48)
  | .font_h => some (.char 0x68)
  | .font_I => some (.char 0x49)
  | .font_i => some (.char 0x69)
  | .font_J => some (.char 0x4A)
  | .font_L => some (.char 0x4C)
  | .font_l => some (.char 0x6C)
  | .font_n => some (.char 0x6E)
  | .font_o => some (.char 0x6F)
  | .font_P => some (.char 0x50)
  | .font_r => some (.char 0x72)
  | .font_t => some (.char 0x74)
  | .font_u => some (.char 0x75)
  | .font_Y => some (.char 0x59)
  | .fontSpace => some (.char 0x20)
  | .fontMinus => some (.char 0x2D)
  | .fontEquals => some (.char 0x3D)
  | .fontDot => some (.char 0x2E)

/-- The row the decoder answers where two rows share a word (log 13): UNBLANK for BRIGHTNESS_BYTE with
`b` = 7 (R77), a key's row FONT_x for ENCODE of that key. -/
def canonical : Instr → Instr
  | .brightnessByte b => if b = 7 then .unblank else .brightnessByte b
  | .encode c => decodeChar c
  | i => i

/-! ### Words of the opcode table -/

/-- The format of a word of the opcode table, given by its width in whole bytes and its bits (log 12). At
one byte the command bytes of `W`, the keys of `CHAR`, START and SET_TEXT have different words, so each is
read as its own format; the words 0 and 1 are START and SET_TEXT. At two bytes SET_BRIGHTNESS has bits 15..8
zero, any other 10-bit word is a SEND_BYTE request. A five-byte word is a frame with its first byte leftmost,
as the table writes it (log 14). -/
def tableWord (nbits w : Nat) : Encoded :=
  if nbits = 8 ∨ nbits = 1 then
    if w = 0 then .l 0
    else if w = 1 then .h 1 0 []
    else if 256 ≤ w then .unknown nbits w
    else match decodeW (BitVec.ofNat 8 w) with
      | .ok _ => .w (BitVec.ofNat 8 w)
      | .error _ => .char (BitVec.ofNat 8 w)
  else if nbits = 16 ∨ nbits = 9 ∨ nbits = 10 then
    if w < 256 then .h 0 (BitVec.ofNat 8 w) []
    else if w < 1024 then .p (BitVec.ofNat 10 w)
    else .unknown nbits w
  else if nbits = 40 then
    if 2 ^ 40 ≤ w then .unknown nbits w
    else .frame [BitVec.ofNat 8 (w / 2 ^ 32), BitVec.ofNat 8 (w / 2 ^ 24), BitVec.ofNat 8 (w / 2 ^ 16),
      BitVec.ofNat 8 (w / 2 ^ 8), BitVec.ofNat 8 w]
  else .unknown nbits w

/-- The instruction the decoder reads from a word of the opcode table. -/
def decodeTableWord (nbits w : Nat) : Option Instr :=
  match decode (tableWord nbits w) with
  | .ok i => some i
  | .error _ => none

end Sys2Proof
end

