-- ==== Sys2Proof/Machine/Programs.lean ====
section
/-! DEFINITION. The micro-op lists: every component operation of the CORE as the list it expands into
(R101 to R142), and the three kinds of program (R39). -/

namespace Sys2Proof.Machine

/-- `v[k]`: bit `k` of a byte, bit 0 least significant (R8, R182 g). -/
def bitAt (v : Byte) (k : Nat) : Level := v.extractLsb' k 1

/-- START (R101). -/
def startOps : List MicroOp := [.sda 0, .wait Config.tCond, .scl 0, .wait Config.tCond]

/-- STOP (R102): exactly two drives, clock high then data high; nothing drives the data line low (C1). -/
def stopOps : List MicroOp := [.scl 1, .wait Config.tCond, .sda 1, .wait Config.tCond]

/-- BIT(b) (R111). -/
def bitOps (b : Level) : List MicroOp :=
  [.wait Config.tBitGap, .sda b, .wait Config.tDataSetup, .scl 1, .wait Config.tClkHigh, .scl 0]

/-- ACK_PHASE (R114): the data output is not written, the sample comes before the clock rises. -/
def ackOps : List MicroOp :=
  [.wait Config.tAckSetup, .sample, .scl 1, .wait Config.tAckHigh, .scl 0, .wait Config.tAckHold]

/-- The eight BITs of a byte, least significant first (R113). -/
def dataOps (v : Byte) : List MicroOp :=
  bitOps (bitAt v 0) ++ bitOps (bitAt v 1) ++ bitOps (bitAt v 2) ++ bitOps (bitAt v 3) ++
    bitOps (bitAt v 4) ++ bitOps (bitAt v 5) ++ bitOps (bitAt v 6) ++ bitOps (bitAt v 7)

/-- SEND_BYTE(v, s, p) (R110): START if `s`, the bits, the ack phase, STOP if `p`, the trailing wait. -/
def sendByteOps (v : Byte) (s p : BitVec 1) : List MicroOp :=
  (if s = 1 then startOps else []) ++ dataOps v ++ ackOps ++ (if p = 1 then stopOps else []) ++
    [.wait Config.tTrail]

/-- INIT_SEQ (R137): UNBLANK, SET_AUTOINC, the 10 ms settle wait. -/
def initSeqOps : List MicroOp :=
  sendByteOps Config.cmdUnblank 1 1 ++ sendByteOps Config.cmdAutoinc 1 1 ++ [.wait Config.tInitSettle]

/-- TEXT_FRAME(d0, d1, d2, d3) (R142). -/
def textFrameOps (d0 d1 d2 d3 : Byte) : List MicroOp :=
  sendByteOps Config.cmdStartAddr 1 0 ++ sendByteOps d0 0 0 ++ sendByteOps d1 0 0 ++
    sendByteOps d2 0 0 ++ sendByteOps d3 0 1

/-- INIT_PROG (R39, R171). -/
def initProg : List MicroOp := initSeqOps

/-- BRIGHT_PROG(b) (R39, R173). -/
def brightProg (b : Byte) : List MicroOp := sendByteOps b 1 1

/-- TEXT_PROG(d0, d1, d2, d3) (R39, R174). -/
def textProg (d0 d1 d2 d3 : Byte) : List MicroOp := textFrameOps d0 d1 d2 d3

/-- The line levels `(scl_o, sda_o)` after a list of micro-ops (R118). -/
def endLevels : List MicroOp → Level × Level → Level × Level
  | [], cd => cd
  | .scl v :: ops, (_, d) => endLevels ops (v, d)
  | .sda v :: ops, (c, _) => endLevels ops (c, v)
  | .wait _ :: ops, cd => endLevels ops cd
  | .sample :: ops, cd => endLevels ops cd

/-- How many SAMPLEs a list of micro-ops holds (R112, R142). -/
def sampleCount : List MicroOp → Nat
  | [] => 0
  | .sample :: ops => sampleCount ops + 1
  | .scl _ :: ops => sampleCount ops
  | .sda _ :: ops => sampleCount ops
  | .wait _ :: ops => sampleCount ops

/-- The labels of the waits of a list, in order (R119, the trace's labels of R226). -/
def waitsOf : List MicroOp → List Nat
  | [] => []
  | .wait n :: ops => n :: waitsOf ops
  | .scl _ :: ops => waitsOf ops
  | .sda _ :: ops => waitsOf ops
  | .sample :: ops => waitsOf ops

/-- The nominal duration of a list: the sum of its wait labels, a lower bound on real time (R228). -/
def nominalUs (ops : List MicroOp) : Nat := (waitsOf ops).sum

/-- The levels a list writes to the data line, in order (R112). -/
def sdaWrites : List MicroOp → List Level
  | [] => []
  | .sda v :: ops => v :: sdaWrites ops
  | .scl _ :: ops => sdaWrites ops
  | .wait _ :: ops => sdaWrites ops
  | .sample :: ops => sdaWrites ops

/-- The levels a list writes to the clock line, in order (R112). -/
def sclWrites : List MicroOp → List Level
  | [] => []
  | .scl v :: ops => v :: sclWrites ops
  | .sda _ :: ops => sclWrites ops
  | .wait _ :: ops => sclWrites ops
  | .sample :: ops => sclWrites ops

end Sys2Proof.Machine
end

