-- ==== Sys2Proof/Machine/State.lean ====
section
/-! DEFINITION. The state of the CORE as plain data (R20, R37), what a step can stop with, and the state
after reset (R41). -/

namespace Sys2Proof.Machine

/-- The driver state (R25). The 2-bit code 3 has no value here (U11). -/
inductive DrvState where
  /-- Between reset and the end of initialization. -/
  | uninit
  /-- Ready for a command. -/
  | idle
  /-- The program of a host command runs. -/
  | transmitting
deriving DecidableEq, Repr

/-- The result code (R26). -/
inductive ResultCode where
  | ok
  | unsupportedCharacter
  | invalidDecimalPointPlacement
  | invalidBrightnessLevel
deriving DecidableEq, Repr

/-- The DigitBuffer (R28): exactly four bytes, `d0` the left-most digit. -/
structure DigitBuffer where
  d0 : Byte
  d1 : Byte
  d2 : Byte
  d3 : Byte
deriving DecidableEq, Repr

/-- One entry of a trace (R12): a micro-op executed, a SAMPLE with the value it read, a host command
accepted, a response given. -/
inductive Event where
  | sda (v : Level)
  | scl (v : Level)
  | wait (n : Nat)
  | sample (read : Level)
  | acceptBrightness (level : BitVec 8)
  | acceptText (text : List Byte)
  | response (code : ResultCode)
deriving DecidableEq, Repr

/-- The input ports at one step (R176). `cmd_len` is the length of `cmd_text`. `sda_i` is the free value
`Config.sdaIn`. `scl_i` is the level of the clock line, which no operation reads (R24). -/
structure Inputs where
  rst : BitVec 1
  cmd_valid : BitVec 1
  cmd_op : BitVec 1
  cmd_level : BitVec 8
  cmd_text : List Byte
  scl_i : Level
deriving DecidableEq, Repr

/-- No reset and no command, and the clock line high (log 3). -/
def Inputs.quiet : Inputs := ⟨0, 0, 0, 0, [], 1⟩

/-- Why the machine stops with a fault: never. The spec's errors are result codes (R190 to R194), and
nothing else can fail (R197), so this type is empty; a closed type without constructors is the safe reading,
since no run of the model ends in a fault. -/
inductive Fault
deriving DecidableEq, Repr

/-- Why a step has no meaning. -/
inductive Refusal where
  /-- Raised by an arm of `exec` whose instruction has no meaning yet. Safe: the run stops. -/
  | notModelled (mnemonic : String)
  /-- Raised by the step that serves an internal request whose word is no operation of its format: the spec
  says such words are never produced and a model must give them no meaning (U9). Safe: the run stops. -/
  | undefinedEncoding (e : DecodeError)
deriving DecidableEq, Repr

/-- The state. The fields from `scl_o` to `rsp_valid` are the spec's; the last six are the model's own
(logs 2, 3, 4, 6, 8, 9). -/
structure State where
  /-- Clock line output (R21). -/
  scl_o : Level
  /-- Data line output (R22). -/
  sda_o : Level
  /-- Driver state (R25). -/
  drv_state : DrvState
  /-- Result code of the last finished host operation (R26). -/
  status : ResultCode
  /-- Most recent ack sample (R27). -/
  ack : Level
  /-- DigitBuffer (R28). -/
  buf : DigitBuffer
  /-- Write cursor of text assembly (R29). -/
  cursor : BitVec 3
  /-- Program of the operation in progress (R31). -/
  prog : List MicroOp
  /-- Micro-operation index (R32). -/
  upc : BitVec 9
  /-- Wait counter (R35): `none` is "not counting" (R41, log 11). -/
  wcnt : Option Nat
  /-- Latched command op (R30). -/
  op_l : BitVec 1
  /-- Latched level (R30). -/
  level_l : BitVec 8
  /-- Latched text (R30). -/
  text_l : List Byte
  /-- Response pulse (R37), 1 in the state that the finishing step leaves (log 27). -/
  rsp_valid : BitVec 1
  /-- Model's own: how many samples were drawn (log 2). -/
  draws : Nat
  /-- Model's own: the input ports at the coming steps; past its end they are quiet (log 3). -/
  inputs : List Inputs
  /-- Model's own: an internal request to one component (R87, log 4). -/
  request : Option Encoded
  /-- Model's own: what was executed since reset (R12, log 6). -/
  trace : List Event
  /-- Model's own: the value the last ENCODE returned (R11, R150, log 8). -/
  pat : Option Byte
  /-- The parameter FONT_ROM (R6, R51, R152), in the canonical form of a cell list. It is no state of the CORE:
  no step writes it (R38 a, log 9). -/
  rom : List Host.Cell
deriving DecidableEq, Repr

/-- The machine right after reset (R41). The latches' values are the model's choice (log 7), and so are the
model's own fields; FONT_ROM has its default contents (R152, log 9). -/
def State.reset : State where
  scl_o := 1
  sda_o := 1
  drv_state := .uninit
  status := .ok
  ack := 1
  buf := ⟨0, 0, 0, 0⟩
  cursor := 0
  prog := initProg
  upc := 0
  wcnt := none
  op_l := 0
  level_l := 0
  text_l := []
  rsp_valid := 0
  draws := 0
  inputs := []
  request := none
  trace := []
  pat := none
  rom := fontRom

end Sys2Proof.Machine
end

