-- ==== Sys2Proof/Machine/Flags.lean ====
section
/-! DEFINITION. Flags: the one flag of the CORE is `ack` (R36), written by SAMPLE alone and read by no
operation. -/

namespace Sys2Proof.Machine

/-- The level on the data line at the next SAMPLE: a free value (R23, U1, log 1). -/
def sampledLevel (s : State) : Level := Config.sdaIn s.draws

/-- `ack <- sda_i` (R27): one draw is taken. -/
def takeSample (s : State) : State :=
  { s with ack := sampledLevel s, draws := s.draws + 1, trace := s.trace ++ [.sample (sampledLevel s)] }

/-- The level the CORE samples under the line contract (R58): the wired AND of its own drive and the
device's. An assumption on the environment, used by no operation. -/
def wiredAnd (coreDrive devDrive : Level) : Level := coreDrive &&& devDrive

end Sys2Proof.Machine
end

