-- ==== Sys2Proof/Machine/Operands.lean ====
section
/-! DEFINITION. Operands: the signed level, the choice of the brightness byte, the addressing of the
DigitBuffer and the assembly of a text. All the arithmetic of the CORE (R182) is here, in Programs.lean
(bit selection) and in the advance of `upc`. -/

namespace Sys2Proof.Machine

/-- `level = sext(cmd_level)` as an integer (R172, R182 a). -/
def levelOf (level : BitVec 8) : Int := level.toInt

/-- BRIGHT_SELECT's choice (R140): the wire byte of a level, or the error. -/
def brightCommand (level : Int) : Except ResultCode Byte :=
  if level ≤ 0 then .ok Config.cmdBlank
  else if level ≤ 8 then .ok (Config.cmdBrightBase ||| BitVec.ofInt 8 (level - 1))
  else .error .invalidBrightnessLevel

/-- The cleared DigitBuffer (R154). -/
def DigitBuffer.clear : DigitBuffer := ⟨0, 0, 0, 0⟩

/-- `buf[i]`. An index above 3 is never formed (R52). -/
def DigitBuffer.get (b : DigitBuffer) : Nat → Byte
  | 0 => b.d0
  | 1 => b.d1
  | 2 => b.d2
  | 3 => b.d3
  | _ => 0

/-- `buf[i] <- buf[i] | p` (R52). An index above 3 is never formed and would write nothing. -/
def DigitBuffer.orAt (b : DigitBuffer) (i : BitVec 3) (p : Byte) : DigitBuffer :=
  if i = 0 then { b with d0 := b.d0 ||| p }
  else if i = 1 then { b with d1 := b.d1 ||| p }
  else if i = 2 then { b with d2 := b.d2 ||| p }
  else if i = 3 then { b with d3 := b.d3 ||| p }
  else b

/-- What ASSEMBLE leaves: the DigitBuffer, the cursor and its result (`ok` or the error raised). -/
structure Assembly where
  buf : DigitBuffer
  cursor : BitVec 3
  code : ResultCode
deriving DecidableEq, Repr

/-- The scan of R154 from a given buffer and cursor: stop at four digits (R157), the decimal point (R155),
any other character (R156). -/
def scanText (rom : List Host.Cell) : List Byte → DigitBuffer → BitVec 3 → Assembly
  | [], buf, cursor => ⟨buf, cursor, .ok⟩
  | c :: text, buf, cursor =>
    if cursor = 4 then ⟨buf, cursor, .ok⟩
    else if c = Config.dotChar then
      if cursor = 0 then ⟨buf, cursor, .invalidDecimalPointPlacement⟩
      else scanText rom text (buf.orAt (cursor - 1) Config.dotBit) cursor
    else match romRead rom c with
      | none => ⟨buf, cursor, .unsupportedCharacter⟩
      | some p => scanText rom text (buf.orAt cursor p) (cursor + 1)

/-- ASSEMBLE(text) (R154): it depends on the text and the ROM alone (R159). -/
def assembleText (rom : List Host.Cell) (text : List Byte) : Assembly :=
  scanText rom text DigitBuffer.clear 0

end Sys2Proof.Machine
end

