-- ==== Sys2Proof/Machine/Ops.lean ====
section
/-! DEFINITION. The operations every meaning is built from: one micro-op, a list of micro-ops, loading a
program, raising an error, completing, and the services of the input ports. -/

namespace Sys2Proof.Machine

/-! ### Micro-ops (R10) -/

/-- The effect of one micro-op on the state (R10, R40 MICRO) without the advance of `upc`. A write that
does not change the line is a micro-op all the same (D22). A WAIT leaves only its label in the trace
(R35, R226). -/
def doMicro (op : MicroOp) (s : State) : State :=
  match op with
  | .sda v => { s with sda_o := v, trace := s.trace ++ [.sda v] }
  | .scl v => { s with scl_o := v, trace := s.trace ++ [.scl v] }
  | .wait n => { s with trace := s.trace ++ [.wait n] }
  | .sample => takeSample s

/-- A list of micro-ops executed strictly in list order (R10). This is the effect of a component operation
as a whole (log 5). -/
def runOps : List MicroOp → State → State
  | [], s => s
  | op :: ops, s => runOps ops (doMicro op s)

/-- `upc <- upc + 1` (R32). -/
def advance (s : State) : State := { s with upc := s.upc + 1 }

/-- The micro-op to execute next (R40 MICRO): `prog[upc]` in UNINIT and TRANSMITTING, nothing in IDLE. -/
def nextOp (s : State) : Option MicroOp :=
  match s.drv_state with
  | .idle => none
  | _ => s.prog[s.upc.toNat]?

/-! ### Programs -/

/-- Accepting a valid command (R40 ACCEPT, success): the program is loaded and transmission begins. -/
def beginProgram (p : List MicroOp) (s : State) : State :=
  { s with prog := p, upc := 0, drv_state := .transmitting }

/-- The completion step of a host command (R40 DONE): status OK, the response pulse, back to IDLE. -/
def completeCommand (s : State) : State :=
  { s with status := .ok, rsp_valid := 1, drv_state := .idle, trace := s.trace ++ [.response .ok] }

/-- The completion step of initialization (R40 DONE): IDLE, no response. -/
def completeInit (s : State) : State := { s with drv_state := .idle }

/-! ### Errors

`raiseError` is the spec's only exception entry. There is no return to put beside it: nothing is saved,
there is no handler, and the driver is in IDLE as before (R194, R195). -/

/-- `raise E` (R194): the status is written and the response pulses; nothing else changes. -/
def raiseError (e : ResultCode) (s : State) : State :=
  { s with status := e, rsp_valid := 1, trace := s.trace ++ [.response e] }

/-! ### Latches (R30, R177) -/

/-- The accept step latches all the operand ports, whatever the command uses (R40 ACCEPT). -/
def latchPorts (p : Inputs) (s : State) : State :=
  { s with op_l := p.cmd_op, level_l := p.cmd_level, text_l := p.cmd_text }

/-- Latching the operand of SET_BRIGHTNESS. The latch of the operand it does not carry stays as it is (log 7). -/
def latchBrightness (level : BitVec 8) (s : State) : State :=
  { s with op_l := 0, level_l := level, trace := s.trace ++ [.acceptBrightness level] }

/-- Latching the operand of SET_TEXT. The latch of the operand it does not carry stays as it is (log 7). -/
def latchText (text : List Byte) (s : State) : State :=
  { s with op_l := 1, text_l := text, trace := s.trace ++ [.acceptText text] }

/-! ### Font (R150, R154) -/

/-- The value an ENCODE returns goes to `pat` (R11, log 8); no other state changes (R150). -/
def returnPattern (c : Byte) (s : State) : State := { s with pat := romRead s.rom c }

/-- ASSEMBLE's writes: `buf` and `cursor` (R154). -/
def storeAssembly (a : Assembly) (s : State) : State := { s with buf := a.buf, cursor := a.cursor }

/-! ### Input ports -/

/-- The input ports at the next step. -/
def portsNow (s : State) : Inputs := s.inputs.headD .quiet

/-- A step consumes one entry of the inputs, and the response pulse of the step before is over (R37). -/
def beginStep (s : State) : State := { s with inputs := s.inputs.tail, rsp_valid := 0 }

/-- The word on the host command port, if the host offers one (R176). -/
def offeredCommand (p : Inputs) : Option Encoded :=
  if p.cmd_valid = 1 then some (.h p.cmd_op p.cmd_level p.cmd_text) else none

/-- RESET (R40, R210): every state element takes its reset value, and the trace starts anew. What belongs to
the environment, the inputs to come and the count of draws, goes on, and the ROM is a constant (logs 9, 21). -/
def resetState (s : State) : State :=
  { State.reset with inputs := s.inputs, draws := s.draws, rom := s.rom }

/-- A host command put on the port of the next step, with the CORE ready for it (log 20). -/
def placeCommand (op : BitVec 1) (level : BitVec 8) (text : List Byte) (s : State) : State :=
  { s with inputs := ⟨0, 1, op, level, text, 1⟩ :: s.inputs, drv_state := .idle, request := none }

/-- An internal request to be served by the next step, with the ports quiet at that step (log 4). -/
def placeRequest (e : Encoded) (s : State) : State :=
  { s with inputs := .quiet :: s.inputs, request := some e }

/-- The word placed where the next step takes its instruction: a host command on the command port, any other
word as an internal request. -/
def placeWord (e : Encoded) (s : State) : State :=
  match e with
  | .h op level text => placeCommand op level text s
  | e => placeRequest e s

/-! ### Outcomes -/

/-- Change the next state of an outcome. -/
def mapNext (f : State → State) (o : Host.Outcome State Fault Refusal) : Host.Outcome State Fault Refusal :=
  match o with
  | .next s => .next (f s)
  | .fault r => .fault r
  | .refused r => .refused r

end Sys2Proof.Machine
end

