-- ==== Sys2Proof/Machine/Driver.lean ====
section
/-! DEFINITION. Driver sequencer (R170 to R185): INIT and the two host commands, evaluated in the accept
step (R40 ACCEPT). -/

namespace Sys2Proof.Machine

/-- INIT (R171): the initialization program from its first micro-op, in UNINIT; `status` and `rsp_valid` are
not written. -/
def execInit (s : State) : Host.Outcome State Fault Refusal :=
  .next { s with prog := initProg, upc := 0, drv_state := .uninit }

/-- SET_BRIGHTNESS(level) (R172). A command is accepted in IDLE alone; offered in another state it has no
effect (R178, log 23). -/
def execSetBrightness (level : BitVec 8) (s : State) : Host.Outcome State Fault Refusal :=
  match s.drv_state with
  | .idle =>
    let s1 := latchBrightness level s
    match brightCommand (levelOf s1.level_l) with
    | .ok b => .next (beginProgram (brightProg b) s1)
    | .error e => .next (raiseError e s1)
  | _ => .next s

/-- SET_TEXT(text) (R175): the whole text is assembled and validated before the program begins. A command is
accepted in IDLE alone (R178, log 23). -/
def execSetText (text : List Byte) (s : State) : Host.Outcome State Fault Refusal :=
  match s.drv_state with
  | .idle =>
    let s1 := latchText text s
    let a := assembleText s1.rom s1.text_l
    let s2 := storeAssembly a s1
    match a.code with
    | .ok => .next (beginProgram (textProg s2.buf.d0 s2.buf.d1 s2.buf.d2 s2.buf.d3) s2)
    | e => .next (raiseError e s2)
  | _ => .next s

end Sys2Proof.Machine
end

