-- ==== Sys2Proof/Machine/Font.lean ====
section
/-! DEFINITION. FontEncoder (R150 to R160): ENCODE, ASSEMBLE and the 36 cells of the font ROM. It touches no
line and emits no micro-op (R159). -/

namespace Sys2Proof.Machine

/-- ENCODE(c) (R150): the pattern of `c`, or `none`, is returned. -/
def execEncode (c : Byte) (s : State) : Host.Outcome State Fault Refusal := .next (returnPattern c s)

/-- ASSEMBLE(text) (R154): `buf` and `cursor` are written, then an error is raised if there is one
(R194, log 22). -/
def execAssemble (text : List Byte) (s : State) : Host.Outcome State Fault Refusal :=
  let a := assembleText s.rom text
  match a.code with
  | .ok => .next (storeAssembly a s)
  | e => .next (raiseError e (storeAssembly a s))

/-! ### The font ROM cells (R152): a read of the key's own address (log 25) -/

/-- FONT_0: the cell of `0` (R152). -/
def execFont0 (s : State) : Host.Outcome State Fault Refusal := .next (returnPattern 0x30 s)

/-- FONT_1: the cell of `1` (R152). -/
def execFont1 (s : State) : Host.Outcome State Fault Refusal := .next (returnPattern 0x31 s)

/-- FONT_2: the cell of `2` (R152). -/
def execFont2 (s : State) : Host.Outcome State Fault Refusal := .next (returnPattern 0x32 s)

/-- FONT_3: the cell of `3` (R152). -/
def execFont3 (s : State) : Host.Outcome State Fault Refusal := .next (returnPattern 0x33 s)

/-- FONT_4: the cell of `4` (R152). -/
def execFont4 (s : State) : Host.Outcome State Fault Refusal := .next (returnPattern 0x34 s)

/-- FONT_5: the cell of `5` (R152). -/
def execFont5 (s : State) : Host.Outcome State Fault Refusal := .next (returnPattern 0x35 s)

/-- FONT_6: the cell of `6` (R152). -/
def execFont6 (s : State) : Host.Outcome State Fault Refusal := .next (returnPattern 0x36 s)

/-- FONT_7: the cell of `7` (R152). -/
def execFont7 (s : State) : Host.Outcome State Fault Refusal := .next (returnPattern 0x37 s)

/-- FONT_8: the cell of `8` (R152). -/
def execFont8 (s : State) : Host.Outcome State Fault Refusal := .next (returnPattern 0x38 s)

/-- FONT_9: the cell of `9` (R152). -/
def execFont9 (s : State) : Host.Outcome State Fault Refusal := .next (returnPattern 0x39 s)

/-- FONT_A: the cell of `A` (R152). -/
def execFont_A (s : State) : Host.Outcome State Fault Refusal := .next (returnPattern 0x41 s)

/-- FONT_b: the cell of `b` (R152). -/
def execFont_b (s : State) : Host.Outcome State Fault Refusal := .next (returnPattern 0x62 s)

/-- FONT_C: the cell of `C` (R152). -/
def execFont_C (s : State) : Host.Outcome State Fault Refusal := .next (returnPattern 0x43 s)

/-- FONT_c: the cell of `c` (R152). -/
def execFont_c (s : State) : Host.Outcome State Fault Refusal := .next (returnPattern 0x63 s)

/-- FONT_D: the cell of `D` (R152). -/
def execFont_D (s : State) : Host.Outcome State Fault Refusal := .next (returnPattern 0x44 s)

/-- FONT_d: the cell of `d` (R152). -/
def execFont_d (s : State) : Host.Outcome State Fault Refusal := .next (returnPattern 0x64 s)

/-- FONT_E: the cell of `E` (R152). -/
def execFont_E (s : State) : Host.Outcome State Fault Refusal := .next (returnPattern 0x45 s)

/-- FONT_F: the cell of `F` (R152). -/
def execFont_F (s : State) : Host.Outcome State Fault Refusal := .next (returnPattern 0x46 s)

/-- FONT_H: the cell of `H` (R152). -/
def execFont_H (s : State) : Host.Outcome State Fault Refusal := .next (returnPattern 0x48 s)

/-- FONT_h: the cell of `h` (R152). -/
def execFont_h (s : State) : Host.Outcome State Fault Refusal := .next (returnPattern 0x68 s)

/-- FONT_I: the cell of `I` (R152). -/
def execFont_I (s : State) : Host.Outcome State Fault Refusal := .next (returnPattern 0x49 s)

/-- FONT_i: the cell of `i` (R152). -/
def execFont_i (s : State) : Host.Outcome State Fault Refusal := .next (returnPattern 0x69 s)

/-- FONT_J: the cell of `J` (R152). -/
def execFont_J (s : State) : Host.Outcome State Fault Refusal := .next (returnPattern 0x4A s)

/-- FONT_L: the cell of `L` (R152). -/
def execFont_L (s : State) : Host.Outcome State Fault Refusal := .next (returnPattern 0x4C s)

/-- FONT_l: the cell of `l` (R152). -/
def execFont_l (s : State) : Host.Outcome State Fault Refusal := .next (returnPattern 0x6C s)

/-- FONT_n: the cell of `n` (R152). -/
def execFont_n (s : State) : Host.Outcome State Fault Refusal := .next (returnPattern 0x6E s)

/-- FONT_o: the cell of `o` (R152). -/
def execFont_o (s : State) : Host.Outcome State Fault Refusal := .next (returnPattern 0x6F s)

/-- FONT_P: the cell of `P` (R152). -/
def execFont_P (s : State) : Host.Outcome State Fault Refusal := .next (returnPattern 0x50 s)

/-- FONT_r: the cell of `r` (R152). -/
def execFont_r (s : State) : Host.Outcome State Fault Refusal := .next (returnPattern 0x72 s)

/-- FONT_t: the cell of `t` (R152). -/
def execFont_t (s : State) : Host.Outcome State Fault Refusal := .next (returnPattern 0x74 s)

/-- FONT_u: the cell of `u` (R152). -/
def execFont_u (s : State) : Host.Outcome State Fault Refusal := .next (returnPattern 0x75 s)

/-- FONT_Y: the cell of `Y` (R152). -/
def execFont_Y (s : State) : Host.Outcome State Fault Refusal := .next (returnPattern 0x59 s)

/-- FONT_SPACE: the cell of space (R152). -/
def execFontSpace (s : State) : Host.Outcome State Fault Refusal := .next (returnPattern 0x20 s)

/-- FONT_MINUS: the cell of `-` (R152). -/
def execFontMinus (s : State) : Host.Outcome State Fault Refusal := .next (returnPattern 0x2D s)

/-- FONT_EQUALS: the cell of `=` (R152). -/
def execFontEquals (s : State) : Host.Outcome State Fault Refusal := .next (returnPattern 0x3D s)

/-- FONT_DOT: the cell of `.` (R152). -/
def execFontDot (s : State) : Host.Outcome State Fault Refusal := .next (returnPattern 0x2E s)

end Sys2Proof.Machine
end

