-- ==== Sys2Proof/Machine/Framer.lean ====
section
/-! DEFINITION. Command framer (R130 to R143): each wire command as the SEND_BYTE it is, and the sequences
built from them. Every ack is sampled and ignored (R139). -/

namespace Sys2Proof.Machine

/-- UNBLANK (R131): SEND_BYTE(0x8F, 1, 1). -/
def execUnblank (s : State) : Host.Outcome State Fault Refusal :=
  .next (runOps (sendByteOps Config.cmdUnblank 1 1) s)

/-- BLANK (R132): SEND_BYTE(0x80, 1, 1). -/
def execBlank (s : State) : Host.Outcome State Fault Refusal :=
  .next (runOps (sendByteOps Config.cmdBlank 1 1) s)

/-- SET_AUTOINC (R133): SEND_BYTE(0x40, 1, 1). -/
def execSetAutoinc (s : State) : Host.Outcome State Fault Refusal :=
  .next (runOps (sendByteOps Config.cmdAutoinc 1 1) s)

/-- BRIGHTNESS_BYTE (R134): SEND_BYTE(0x88 | b, 1, 1) with `b = level - 1`. -/
def execBrightnessByte (b : BitVec 3) (s : State) : Host.Outcome State Fault Refusal :=
  .next (runOps (sendByteOps (Config.cmdBrightBase ||| b.setWidth 8) 1 1) s)

/-- SET_START_ADDR (R135): SEND_BYTE(0xC0, 1, 0), the frame stays open. -/
def execSetStartAddr (s : State) : Host.Outcome State Fault Refusal :=
  .next (runOps (sendByteOps Config.cmdStartAddr 1 0) s)

/-- DATA(d) (R136): SEND_BYTE(d, 0, 0). -/
def execData (d : Byte) (s : State) : Host.Outcome State Fault Refusal :=
  .next (runOps (sendByteOps d 0 0) s)

/-- DATA_LAST(d) (R136): SEND_BYTE(d, 0, 1). -/
def execDataLast (d : Byte) (s : State) : Host.Outcome State Fault Refusal :=
  .next (runOps (sendByteOps d 0 1) s)

/-- INIT_SEQ (R137). -/
def execInitSeq (s : State) : Host.Outcome State Fault Refusal := .next (runOps initSeqOps s)

/-- BRIGHT_SELECT(level) (R140): send BLANK, send the brightness byte, or raise (log 22). -/
def execBrightSelect (level : Int) (s : State) : Host.Outcome State Fault Refusal :=
  match brightCommand level with
  | .ok b => .next (runOps (sendByteOps b 1 1) s)
  | .error e => .next (raiseError e s)

/-- TEXT_FRAME(d0, d1, d2, d3) (R142). -/
def execTextFrame (d0 d1 d2 d3 : Byte) (s : State) : Host.Outcome State Fault Refusal :=
  .next (runOps (textFrameOps d0 d1 d2 d3) s)

end Sys2Proof.Machine
end

