-- ==== Sys2Proof/Machine/LineController.lean ====
section
/-! DEFINITION. LineController (R100 to R104): START and STOP. Neither can fail; both execute their micro-ops
whatever the line levels on entry are. -/

namespace Sys2Proof.Machine

/-- START (R101). -/
def execStart (s : State) : Host.Outcome State Fault Refusal := .next (runOps startOps s)

/-- STOP (R102). -/
def execStop (s : State) : Host.Outcome State Fault Refusal := .next (runOps stopOps s)

end Sys2Proof.Machine
end

