-- ==== Sys2Proof/Machine/Micro.lean ====
section
/-! DEFINITION. The micro-operations (R10, R40 MICRO). The advance of `upc` is the step's. -/

namespace Sys2Proof.Machine

/-- SDA(v): `sda_o <- v` (R10, R22). -/
def execSda (v : Level) (s : State) : Host.Outcome State Fault Refusal := .next (doMicro (.sda v) s)

/-- SCL(v): `scl_o <- v` (R10, R21). -/
def execScl (v : Level) (s : State) : Host.Outcome State Fault Refusal := .next (doMicro (.scl v) s)

/-- WAIT(n): at least `n` microseconds pass; no state element of R20 changes (R35). Labels outside the closed set
are for WellFormed to refuse (log 26). -/
def execWait (n : Nat) (s : State) : Host.Outcome State Fault Refusal := .next (doMicro (.wait n) s)

/-- SAMPLE: `ack <- sda_i` (R10, R27, R114). -/
def execSample (s : State) : Host.Outcome State Fault Refusal := .next (doMicro .sample s)

end Sys2Proof.Machine
end

