-- ==== Sys2Proof/Machine/Transceiver.lean ====
section
/-! DEFINITION. ByteTransceiver (R110 to R123): SEND_BYTE and its two sub-sequences. The returned ack bit is
the register `ack` (R117). -/

namespace Sys2Proof.Machine

/-- SEND_BYTE(v, s, p) (R110). -/
def execSendByte (v : Byte) (withStart withStop : BitVec 1) (s : State) : Host.Outcome State Fault Refusal :=
  .next (runOps (sendByteOps v withStart withStop) s)

/-- BIT(b) (R111). -/
def execBit (b : Level) (s : State) : Host.Outcome State Fault Refusal := .next (runOps (bitOps b) s)

/-- ACK_PHASE (R114). -/
def execAckPhase (s : State) : Host.Outcome State Fault Refusal := .next (runOps ackOps s)

end Sys2Proof.Machine
end

