-- ==== Sys2Proof/Machine/Dispatch.lean ====
section
/-! DEFINITION. The meaning of every operation of the opcode table, one arm a constructor. -/

namespace Sys2Proof.Machine

def exec (i : Instr) (s : State) : Host.Outcome State Fault Refusal :=
  match i with
  | .unblank => Sys2Proof.Machine.execUnblank s
  | .blank => Sys2Proof.Machine.execBlank s
  | .setAutoinc => Sys2Proof.Machine.execSetAutoinc s
  | .brightnessByte b => Sys2Proof.Machine.execBrightnessByte b s
  | .setStartAddr => Sys2Proof.Machine.execSetStartAddr s
  | .data d => Sys2Proof.Machine.execData d s
  | .dataLast d => Sys2Proof.Machine.execDataLast d s
  | .initSeq => Sys2Proof.Machine.execInitSeq s
  | .brightSelect level => Sys2Proof.Machine.execBrightSelect level s
  | .textFrame d0 d1 d2 d3 => Sys2Proof.Machine.execTextFrame d0 d1 d2 d3 s
  | .setBrightness level => Sys2Proof.Machine.execSetBrightness level s
  | .setText text => Sys2Proof.Machine.execSetText text s
  | .init => Sys2Proof.Machine.execInit s
  | .sendByte v withStart withStop => Sys2Proof.Machine.execSendByte v withStart withStop s
  | .bit b => Sys2Proof.Machine.execBit b s
  | .ackPhase => Sys2Proof.Machine.execAckPhase s
  | .start => Sys2Proof.Machine.execStart s
  | .stop => Sys2Proof.Machine.execStop s
  | .sda v => Sys2Proof.Machine.execSda v s
  | .scl v => Sys2Proof.Machine.execScl v s
  | .wait n => Sys2Proof.Machine.execWait n s
  | .sample => Sys2Proof.Machine.execSample s
  | .encode c => Sys2Proof.Machine.execEncode c s
  | .assemble text => Sys2Proof.Machine.execAssemble text s
  | .font0 => Sys2Proof.Machine.execFont0 s
  | .font1 => Sys2Proof.Machine.execFont1 s
  | .font2 => Sys2Proof.Machine.execFont2 s
  | .font3 => Sys2Proof.Machine.execFont3 s
  | .font4 => Sys2Proof.Machine.execFont4 s
  | .font5 => Sys2Proof.Machine.execFont5 s
  | .font6 => Sys2Proof.Machine.execFont6 s
  | .font7 => Sys2Proof.Machine.execFont7 s
  | .font8 => Sys2Proof.Machine.execFont8 s
  | .font9 => Sys2Proof.Machine.execFont9 s
  | .font_A => Sys2Proof.Machine.execFont_A s
  | .font_b => Sys2Proof.Machine.execFont_b s
  | .font_C => Sys2Proof.Machine.execFont_C s
  | .font_c => Sys2Proof.Machine.execFont_c s
  | .font_D => Sys2Proof.Machine.execFont_D s
  | .font_d => Sys2Proof.Machine.execFont_d s
  | .font_E => Sys2Proof.Machine.execFont_E s
  | .font_F => Sys2Proof.Machine.execFont_F s
  | .font_H => Sys2Proof.Machine.execFont_H s
  | .font_h => Sys2Proof.Machine.execFont_h s
  | .font_I => Sys2Proof.Machine.execFont_I s
  | .font_i => Sys2Proof.Machine.execFont_i s
  | .font_J => Sys2Proof.Machine.execFont_J s
  | .font_L => Sys2Proof.Machine.execFont_L s
  | .font_l => Sys2Proof.Machine.execFont_l s
  | .font_n => Sys2Proof.Machine.execFont_n s
  | .font_o => Sys2Proof.Machine.execFont_o s
  | .font_P => Sys2Proof.Machine.execFont_P s
  | .font_r => Sys2Proof.Machine.execFont_r s
  | .font_t => Sys2Proof.Machine.execFont_t s
  | .font_u => Sys2Proof.Machine.execFont_u s
  | .font_Y => Sys2Proof.Machine.execFont_Y s
  | .fontSpace => Sys2Proof.Machine.execFontSpace s
  | .fontMinus => Sys2Proof.Machine.execFontMinus s
  | .fontEquals => Sys2Proof.Machine.execFontEquals s
  | .fontDot => Sys2Proof.Machine.execFontDot s

end Sys2Proof.Machine
end

