-- ==== Sys2Proof/Machine/Sequencer.lean ====
section
/-! DEFINITION. The step relation of the sequencer (R40), in its priority order. -/

namespace Sys2Proof.Machine

/-- An internal request is decoded and executed as a whole (R87, log 4); a word that is no operation of its
format is refused (U9, log 16). -/
def serveRequest (e : Encoded) (s : State) : Host.Outcome State Fault Refusal :=
  match decode e with
  | .ok i => exec i s
  | .error r => .refused (.undefinedEncoding r)

/-- DONE, ACCEPT and IDLE of R40: what happens when there is no micro-op to execute. An index beyond the program,
which no reachable state has, changes nothing (log 24). -/
def betweenPrograms (p : Inputs) (s : State) : Host.Outcome State Fault Refusal :=
  match s.drv_state with
  | .transmitting => if s.upc.toNat = s.prog.length then .next (completeCommand s) else .next s
  | .uninit => if s.upc.toNat = s.prog.length then .next (completeInit s) else .next s
  | .idle =>
    match offeredCommand p with
    | some e => serveRequest e (latchPorts p s)
    | none => .next s

/-- MICRO of R40 where a program runs, and what lies between programs otherwise. -/
def sequencerStep (p : Inputs) (s : State) : Host.Outcome State Fault Refusal :=
  match nextOp s with
  | some op => mapNext advance (exec op.toInstr s)
  | none => betweenPrograms p s

/-- One step: RESET before everything (R210), then an internal request if one stands (log 4), then the
sequencer. -/
def stepBody (s : State) : Host.Outcome State Fault Refusal :=
  let p := portsNow s
  let s0 := beginStep s
  if p.rst = 1 then .next (resetState s0)
  else match s0.request with
    | some e => serveRequest e { s0 with request := none }
    | none => sequencerStep p s0

end Sys2Proof.Machine
end

