-- ==== Sys2Proof/Machine/Step.lean ====
section
/-! DEFINITION. The step of the machine (R40), and how one word of the opcode table is placed where the next
step takes its instruction. -/

namespace Sys2Proof.Machine

/-- One step of the CORE (R40). -/
def step (s : State) : Host.Outcome State Fault Refusal := stepBody s

/-- `s` with the word stored where the next step takes its instruction: a host command on the command port
with the CORE ready for it, any other word as an internal request (logs 4, 12, 20). -/
def State.withFetchWord (s : State) (nbits w : Nat) : State := placeWord (tableWord nbits w) s

end Sys2Proof.Machine
end

