-- ==== Sys2Proof/Machine/Realisation.lean ====
section
/-! DEFINITION. R33's realisation of `prog[upc]` by counters. It is informative in the spec and none of its
registers is visible, so it stands beside State; that it produces the normative lists is stated as a claim. -/

namespace Sys2Proof.Machine

/-- One SEND_BYTE of a program. -/
structure ByteRequest where
  value : Byte
  withStart : BitVec 1
  withStop : BitVec 1
deriving DecidableEq, Repr

/-- A program in the shape R33 names: a list of SEND_BYTEs, optionally followed by one WAIT(10000). -/
structure ProgramShape where
  bytes : List ByteRequest
  settle : Bool
deriving DecidableEq, Repr

/-- The micro-op list of a list of SEND_BYTEs. -/
def requestOps : List ByteRequest → List MicroOp
  | [] => []
  | r :: rs => sendByteOps r.value r.withStart r.withStop ++ requestOps rs

/-- The micro-op list of a shape. -/
def ProgramShape.ops (sh : ProgramShape) : List MicroOp :=
  requestOps sh.bytes ++ (if sh.settle then [.wait Config.tInitSettle] else [])

/-- The shape of INIT_PROG (R171). -/
def initShape : ProgramShape := ⟨[⟨0x8F, 1, 1⟩, ⟨0x40, 1, 1⟩], true⟩

/-- The shape of BRIGHT_PROG(b) (R173). -/
def brightShape (b : Byte) : ProgramShape := ⟨[⟨b, 1, 1⟩], false⟩

/-- The shape of TEXT_PROG(d0, d1, d2, d3) (R174). -/
def textShape (d0 d1 d2 d3 : Byte) : ProgramShape :=
  ⟨[⟨0xC0, 1, 0⟩, ⟨d0, 0, 0⟩, ⟨d1, 0, 0⟩, ⟨d2, 0, 0⟩, ⟨d3, 0, 1⟩], false⟩

/-- The frames a list of SEND_BYTEs sends (R59, R78): a frame ends at the byte that has the STOP. `sent` is
the part of the open frame already sent. -/
def framesOf : List ByteRequest → List Byte → List (List Byte)
  | [], [] => []
  | [], sent => [sent]
  | r :: rs, sent =>
    if r.withStop = 1 then (sent ++ [r.value]) :: framesOf rs [] else framesOf rs (sent ++ [r.value])

/-- The phases of a SEND_BYTE and the settle wait (R33). -/
inductive Phase where
  | start
  | bit
  | ack
  | stop
  | trail
  | settle
deriving DecidableEq, Repr

/-- The registers of R33. -/
structure SeqRegs where
  byte_ix : BitVec 3
  value : Byte
  with_start : BitVec 1
  with_stop : BitVec 1
  phase : Phase
  bit_ix : BitVec 3
  sub : BitVec 3
deriving DecidableEq, Repr

/-- The table the micro-op is read from (R33): R101, R102, R111 to R115, with `SDA(value[bit_ix])` in BIT. -/
def SeqRegs.table (r : SeqRegs) : List MicroOp :=
  match r.phase with
  | .start => startOps
  | .bit => bitOps (bitAt r.value r.bit_ix.toNat)
  | .ack => ackOps
  | .stop => stopOps
  | .trail => [.wait Config.tTrail]
  | .settle => [.wait Config.tInitSettle]

/-- The micro-op at the registers' position. -/
def SeqRegs.op (r : SeqRegs) : Option MicroOp := r.table[r.sub.toNat]?

/-- The registers at the beginning of byte `k` of a shape, if it has one. -/
def ProgramShape.load (sh : ProgramShape) (k : BitVec 3) : Option SeqRegs :=
  match sh.bytes[k.toNat]? with
  | some b => some ⟨k, b.value, b.withStart, b.withStop, if b.withStart = 1 then .start else .bit, 0, 0⟩
  | none => none

/-- The registers at the next position; `none` at the end of the program. -/
def SeqRegs.next (sh : ProgramShape) (r : SeqRegs) : Option SeqRegs :=
  if r.sub.toNat + 1 < r.table.length then some { r with sub := r.sub + 1 }
  else match r.phase with
    | .start => some { r with phase := .bit, bit_ix := 0, sub := 0 }
    | .bit =>
      if r.bit_ix = 7 then some { r with phase := .ack, sub := 0 }
      else some { r with bit_ix := r.bit_ix + 1, sub := 0 }
    | .ack => some { r with phase := if r.with_stop = 1 then .stop else .trail, sub := 0 }
    | .stop => some { r with phase := .trail, sub := 0 }
    | .trail =>
      match sh.load (r.byte_ix + 1) with
      | some r' => some r'
      | none => if sh.settle then some { r with phase := .settle, sub := 0 } else none
    | .settle => none

/-- The registers after `n` micro-ops. -/
def ProgramShape.regsAt (sh : ProgramShape) : Nat → Option SeqRegs
  | 0 => sh.load 0
  | n + 1 => (sh.regsAt n).bind (SeqRegs.next sh)

/-- The micro-op the counters give at index `n`. -/
def ProgramShape.opAt (sh : ProgramShape) (n : Nat) : Option MicroOp := (sh.regsAt n).bind SeqRegs.op

end Sys2Proof.Machine
end

