-- ==== Sys2Proof/Machine/Environment.lean ====
section
/-! DEFINITION. The optional environment contract (R58 to R62): what a frame does to the device. It binds no
behaviour of the CORE, is no part of State (R38 d), and no operation reads it (log 19). -/

namespace Sys2Proof.Machine

/-- The device as far as the spec gives it (R43): display on or off, brightness (`level - 1`), the addressing
mode, the address pointer and the four digit registers. -/
structure Device where
  displayOn : Bool
  brightness : BitVec 3
  autoInc : Bool
  pointer : Nat
  digits : DigitBuffer
deriving DecidableEq, Repr

/-- Whether the display shows a segment of position `k` lit, 0 being the left-most: while the output is enabled, the
bits that are 1 in the digit register are (R61, R82), and otherwise nothing is shown (R60). -/
def Device.lit (d : Device) (k : Nat) (seg : DigitSegment) : Bool := d.displayOn && lights (d.digits.get k) seg

/-- The display is fully blanked: no segment of the four digits is lit (R61). -/
def Device.blanked (d : Device) : Bool :=
  (List.range 4).all fun k => DigitSegment.all.all fun seg => !d.lit k seg

/-- What a model that includes the device has to assume beyond the contract, by name. -/
structure Assumed where
  /-- The device recognises the end of a frame whose STOP has no data edge (R221, R62 d, U3). -/
  endSeen : Bool
  /-- The byte 0x8F sets the brightness of level 8 whichever command it is sent as. R134 says so of the brightness
  byte of level 8, N9 says not to assume it of UNBLANK, and on the wire the two are the same byte (R77). -/
  unblankIsLevel8 : Bool
deriving DecidableEq, Repr

/-- `d'` is a state the device may be in after a frame it has seen the end of (R60 to R62). What the spec is silent
on may hold anything: the address pointer after every frame, the brightness after BLANK, SET_AUTOINC and a text
frame and, unless assumed, after 0x8F, the digit registers after a brightness byte (R62 b, U4), everything after a
frame the CORE never sends (U9). Four things kept are DEDUCED (log 19): the addressing mode by every frame, on which
each text frame relies (R61, R133); on/off and the digits by SET_AUTOINC and on/off by a text frame (the device's end
states of P1 and P3, `95_test_vectors.md`). -/
def frameEffect (assumed : Assumed) (frame : List Byte) (d d' : Device) : Prop :=
  match frame with
  | [b] =>
    if b = Config.cmdBlank then d'.displayOn = false ∧ d'.digits = d.digits ∧ d'.autoInc = d.autoInc
    else if b = Config.cmdAutoinc then d'.autoInc = true ∧ d'.displayOn = d.displayOn ∧ d'.digits = d.digits
    else if b.extractLsb' 3 5 = 0b10001 then
      d'.displayOn = true ∧ d'.autoInc = d.autoInc ∧
        (b ≠ Config.cmdUnblank ∨ assumed.unblankIsLevel8 = true → d'.brightness = b.extractLsb' 0 3)
    else True
  | [b, d0, d1, d2, d3] =>
    if b = Config.cmdStartAddr ∧ d.autoInc = true then
      d'.digits = ⟨d0, d1, d2, d3⟩ ∧ d'.displayOn = d.displayOn ∧ d'.autoInc = d.autoInc
    else True
  | _ => True

/-- STOP shows a rising data edge while the clock is high exactly when bit 7 of the frame's last byte is 0
(R102, R221). -/
def stopHasEdge (frame : List Byte) : Bool :=
  match frame.getLast? with
  | some b => !b.msb
  | none => false

/-- What the contract says of a sequence of frames. A frame has its effect if its STOP has an edge or its end is
assumed to be seen; after a frame whose end the device may have missed nothing is said of it any more, by the later
frames either (R62 d, U3; DESIGN CHOICE, log 19). -/
def deviceAfter (assumed : Assumed) : List (List Byte) → Device → Device → Prop
  | [], d, d' => d' = d
  | frame :: frames, d, d' =>
    if stopHasEdge frame || assumed.endSeen then
      ∃ m, frameEffect assumed frame d m ∧ deviceAfter assumed frames m d'
    else True

end Sys2Proof.Machine
end

