-- ==== Sys2Proof/Machine/Ports.lean ====
section
/-! DEFINITION. The output ports (R176, R185) and the encodings behind them (R84, R85). All are read-only and
always visible. -/

namespace Sys2Proof.Machine

/-- Format `ST` (R84). -/
def DrvState.code : DrvState → BitVec 2
  | .uninit => 0b00
  | .idle => 0b01
  | .transmitting => 0b10

/-- Format `RS` (R85). -/
def ResultCode.code : ResultCode → BitVec 2
  | .ok => 0b00
  | .unsupportedCharacter => 0b01
  | .invalidDecimalPointPlacement => 0b10
  | .invalidBrightnessLevel => 0b11

/-- What the source's `setText` returns for a result code (R85): `true` exactly for OK. -/
def ResultCode.isTrue (r : ResultCode) : Bool := r = .ok

/-- `cmd_ready` (R25, R176). -/
def cmdReady (s : State) : BitVec 1 := if s.drv_state = .idle then 1 else 0

/-- `busy` (R25, R176). -/
def busy (s : State) : BitVec 1 := if s.drv_state = .idle then 0 else 1

/-- `state_o` (R176). -/
def stateO (s : State) : BitVec 2 := s.drv_state.code

/-- `ack_o` (R27, R176). -/
def ackO (s : State) : BitVec 1 := s.ack

/-- `rsp_valid` (R37, R176). -/
def rspValid (s : State) : BitVec 1 := s.rsp_valid

/-- `rsp_status` (R26, R176). -/
def rspStatus (s : State) : BitVec 2 := s.status.code

/-- The line outputs `(scl_o, sda_o)`. -/
def lines (s : State) : Level × Level := (s.scl_o, s.sda_o)

/-- A command the port can carry (R6, R176): `cmd_len` is at most TEXT_MAX. No rule depends on it (log 15). -/
def Inputs.fitsPort (p : Inputs) : Prop := p.cmd_text.length ≤ Config.textMax

/-- The least count of the wait counter for WAIT(n) in clock cycles (R35, R182 j). The model has no time and
no step reads this (log 17). -/
def waitCycles (n : Nat) : Nat := n * Config.cyclesPerUs

end Sys2Proof.Machine
end

