-- ==== Sys2Proof/Machine/Waveform.lean ====
section
/-! DEFINITION. What an observer of the lines sees: the waveform of a trace (R12) and the bytes a receiver
reads from the clock pulses (R79). -/

namespace Sys2Proof.Machine

/-- A segment of a waveform: the outputs hold `(scl, sda)` for at least `us` microseconds. -/
structure Segment where
  scl : Level
  sda : Level
  us : Nat
deriving DecidableEq, Repr

/-- The waveform of a list of micro-ops (R12) from the output pair `(c, d)` held for `us` so far. A write
that changes no output is dropped (D22). -/
def waveform (c d : Level) (us : Nat) : List MicroOp → List Segment
  | [] => [⟨c, d, us⟩]
  | .scl v :: ops => if v = c then waveform c d us ops else ⟨c, d, us⟩ :: waveform v d 0 ops
  | .sda v :: ops => if v = d then waveform c d us ops else ⟨c, d, us⟩ :: waveform c v 0 ops
  | .wait n :: ops => waveform c d (us + n) ops
  | .sample :: ops => waveform c d us ops

/-- The level of the data output at each rising edge of the clock output. Reading it as what a receiver takes is the
model's choice: on which clock edge the device takes a bit is not in the source (R59, N6; DESIGN CHOICE, log 28). -/
def clockedLevels (c d : Level) : List MicroOp → List Level
  | [] => []
  | .scl v :: ops => if c = 0 ∧ v = 1 then d :: clockedLevels v d ops else clockedLevels v d ops
  | .sda v :: ops => clockedLevels c v ops
  | .wait _ :: ops => clockedLevels c d ops
  | .sample :: ops => clockedLevels c d ops

/-- Nine clock pulses are a byte, least significant bit first, and its ack slot (R79). -/
def receivedBytes : List Level → List Byte
  | b0 :: b1 :: b2 :: b3 :: b4 :: b5 :: b6 :: b7 :: _ :: rest =>
    (b7 ++ b6 ++ b5 ++ b4 ++ b3 ++ b2 ++ b1 ++ b0 : BitVec 8) :: receivedBytes rest
  | _ => []

/-- The bytes a receiver of R79 reads from one frame that begins with the bus idle, if it takes a bit at the rising
clock edge (DESIGN CHOICE, log 28). -/
def receive (ops : List MicroOp) : List Byte := receivedBytes (clockedLevels 1 1 ops)

/-- The events a list of micro-ops leaves in the trace, when `n` samples were drawn before (R12). -/
def eventsOf : List MicroOp → Nat → List Event
  | [], _ => []
  | .scl v :: ops, n => .scl v :: eventsOf ops n
  | .sda v :: ops, n => .sda v :: eventsOf ops n
  | .wait k :: ops, n => .wait k :: eventsOf ops n
  | .sample :: ops, n => .sample (Config.sdaIn n) :: eventsOf ops (n + 1)

/-! ### What a trace says (R12) -/

/-- The micro-op an event of a trace records, if it records one. -/
def Event.microOp : Event → Option MicroOp
  | .scl v => some (.scl v)
  | .sda v => some (.sda v)
  | .wait n => some (.wait n)
  | .sample _ => some .sample
  | .acceptBrightness _ => none
  | .acceptText _ => none
  | .response _ => none

/-- The micro-ops of a trace, in order (R12). -/
def microOps (trace : List Event) : List MicroOp := trace.filterMap Event.microOp

/-- The commands accepted and the responses given, in order: the other list of R12. -/
def hostEvents (trace : List Event) : List Event := trace.filter fun e => e.microOp.isNone

/-- The waveform of a trace (R12). A trace begins at reset, where both outputs are 1 (R41). -/
def traceWaveform (trace : List Event) : List Segment := waveform 1 1 0 (microOps trace)

end Sys2Proof.Machine
end

