-- ==== Sys2Proof/WellFormed.lean ====
section
/-! DEFINITION. What a well-formed operation is (the operands the spec admits), and what a font ROM must
satisfy to be a value of the parameter FONT_ROM (R151, R153, U7). -/

namespace Sys2Proof

/-- A micro-op whose wait label is of the closed set (R5, R10). -/
def MicroOp.wf : MicroOp → Bool
  | .wait n => Config.waitLabels.contains n
  | _ => true

/-- A well-formed operation. The operand types admit only what the spec admits, but for the label of WAIT,
which is of the closed set (R10). A text of any length is admitted (R86, log 15). -/
def Instr.wf : Instr → Bool
  | .wait n => Config.waitLabels.contains n
  | _ => true

/-- R153 on one cell: (b) 8 bits by its type, (c) bit 7 is 0 unless it is the decimal point, (d) the
decimal point's pattern is 0x80. -/
def fontCellWf (cell : Host.Cell) : Bool :=
  if cell.1 = Config.dotChar.toNat then cell.2 = Config.dotBit else !cell.2.msb

/-- What R153 requires of any ROM: canonical, with exactly the key set of R151, each cell as R153 requires. -/
def fontRomRequirements (rom : List Host.Cell) : Bool :=
  Machine.Memory.wf rom && decide (rom.map Prod.fst = Machine.fontKeys.map BitVec.toNat) &&
    rom.all fontCellWf

/-- A ROM the parameter FONT_ROM admits: it meets R153, and its two keys `D` and `d` have one and the same
pattern (R151, D15). -/
def fontRomWf (rom : List Host.Cell) : Bool :=
  fontRomRequirements rom && decide (Machine.romRead rom 0x44 = Machine.romRead rom 0x64)

end Sys2Proof
end

