-- ==== Sys2Proof/Safety.lean ====
section
/-! DEFINITION. Safety: the invariant of R42, what a run without reset is, and the words the claims about
texts and acknowledgements are stated in. -/

namespace Sys2Proof.Machine

/-- A wire byte a SET_BRIGHTNESS sends (R173): 0x80 or 0x88..0x8F. -/
def IsBrightByte (b : Byte) : Prop := b = 0x80 ∨ b.extractLsb' 3 5 = 0b10001

/-- One of the three kinds of program (R39). The last digit of a text never carries a decimal point (R157). -/
def IsProgram (p : List MicroOp) : Prop :=
  p = initProg ∨ (∃ b, IsBrightByte b ∧ p = brightProg b) ∨
    ∃ d0 d1 d2 d3 : Byte, d3.msb = false ∧ p = textProg d0 d1 d2 d3

/-- What holds in every reachable state (R42), with what makes it inductive: the rest of the running program
leaves the lines idle (R118). -/
structure Inv (s : State) : Prop where
  /-- R42 (a). -/
  cursor_le : s.cursor.toNat ≤ 4
  /-- R42 (b). -/
  upc_le : s.upc.toNat ≤ s.prog.length
  /-- R42 (c). -/
  idle_lines : s.drv_state = .idle → s.scl_o = 1 ∧ s.sda_o = 1
  /-- A program that has ended stays ended while the driver is IDLE. -/
  idle_done : s.drv_state = .idle → s.upc.toNat = s.prog.length
  /-- R42 (e): UNINIT is initialization. -/
  uninit_prog : s.drv_state = .uninit → s.prog = initProg
  /-- R39. -/
  prog_kind : IsProgram s.prog
  /-- R39: every program ends with both outputs at 1. -/
  ends_idle : endLevels (s.prog.drop s.upc.toNat) (s.scl_o, s.sda_o) = (1, 1)
  /-- R157. -/
  last_digit : s.buf.d3.msb = false
  /-- R35, log 11. -/
  not_counting : s.wcnt = none
  /-- R151, R153, U7: the ROM is a value the parameter FONT_ROM admits. -/
  rom_wf : fontRomWf s.rom = true
  /-- Log 4: the CORE itself makes no internal request to be served alone. -/
  no_request : s.request = none

/-- Every state element of R41 that has a reset value holds it. The latches, whose reset value is unspecified,
are not mentioned (log 7). -/
structure AtReset (s : State) : Prop where
  scl_o : s.scl_o = 1
  sda_o : s.sda_o = 1
  drv_state : s.drv_state = .uninit
  status : s.status = .ok
  ack : s.ack = 1
  buf : s.buf = ⟨0, 0, 0, 0⟩
  cursor : s.cursor = 0
  prog : s.prog = initProg
  upc : s.upc = 0
  wcnt : s.wcnt = none
  rsp_valid : s.rsp_valid = 0

/-- `rst` is not asserted at any of the next `n` steps. -/
def NoReset (n : Nat) (s : State) : Prop := ∀ p ∈ s.inputs.take n, p.rst = 0

/-- The command offered at the next step, without reset. -/
def Offers (s : State) (op : BitVec 1) (level : BitVec 8) (text : List Byte) : Prop :=
  (portsNow s).rst = 0 ∧ (portsNow s).cmd_valid = 1 ∧ (portsNow s).cmd_op = op ∧
    (portsNow s).cmd_level = level ∧ (portsNow s).cmd_text = text

/-- `n` steps of the machine, stopping at the first refusal. It is the run of `Sys2Proof.core` written over
the model's own step (`core_run_eq` under Laws). -/
def runSteps : Nat → State → Host.Outcome State Fault Refusal
  | 0, s => .next s
  | n + 1, s =>
    match step s with
    | .next t => runSteps n t
    | .fault r => .fault r
    | .refused r => .refused r

/-- An event without the value a SAMPLE read. -/
def Event.blind : Event → Event
  | .sample _ => .sample 0
  | e => e

/-- Two states that differ at most in what the data line answered: the ack register, the draws, and the
values the samples of the trace read. -/
structure SameButAck (s t : State) : Prop where
  rest : t = { s with ack := t.ack, draws := t.draws, trace := t.trace }
  trace : s.trace.map Event.blind = t.trace.map Event.blind

/-- The character `D` written as `d`, any other as it is. -/
def lowerD (c : Byte) : Byte := if c = 0x44 then 0x64 else c

/-- A text in groups: a character that is not the decimal point, and how many decimal points follow it. -/
def groupsText : List (Byte × Nat) → List Byte
  | [] => []
  | (c, dots) :: gs => c :: (List.replicate dots Config.dotChar ++ groupsText gs)

/-- Every group's character is a key of the ROM other than the decimal point. -/
def GroupsOk (rom : List Host.Cell) (gs : List (Byte × Nat)) : Prop :=
  ∀ g ∈ gs, g.1 ≠ Config.dotChar ∧ (romRead rom g.1).isSome

/-- The pattern R156 gives a position: the character's, and the dot bit if a decimal point followed it. -/
def groupPattern (rom : List Host.Cell) (g : Byte × Nat) : Byte :=
  (romRead rom g.1).getD 0 ||| (if g.2 = 0 then 0 else Config.dotBit)

/-- The final value of position `k` (R156, R157): zero where no character reached, no decimal point on the
fourth digit. -/
def groupDigit (rom : List Host.Cell) (gs : List (Byte × Nat)) (k : Nat) : Byte :=
  match gs[k]? with
  | none => 0
  | some g => if k = 3 then groupPattern rom (g.1, 0) else groupPattern rom g

/-- The DigitBuffer of a list of groups. -/
def groupBuffer (rom : List Host.Cell) (gs : List (Byte × Nat)) : DigitBuffer :=
  ⟨groupDigit rom gs 0, groupDigit rom gs 1, groupDigit rom gs 2, groupDigit rom gs 3⟩

end Sys2Proof.Machine
end

