-- ==== Sys2Proof/Certificates/Slice0/Obligations.lean ====
section
/-! DEFINITION. The statements for the provers, each the formal text of a rule of the spec or of what follows
from several. -/

open Sys2Proof Sys2Proof.Machine

/-- State.reset has both line outputs 1, driver state UNINIT, status OK, ack 1, a cleared DigitBuffer, cursor 0, INIT_PROG at index 0, a wait counter that is not counting and no response pulse. The latches, whose reset value the spec leaves unspecified, are not mentioned. -/
def Obligations.ResetStateHoldsTheTableOfResetValues : Prop :=
  State.reset.scl_o = 1 ∧ State.reset.sda_o = 1 ∧ State.reset.drv_state = .uninit ∧
    State.reset.status = .ok ∧ State.reset.ack = 1 ∧ State.reset.buf = ⟨0, 0, 0, 0⟩ ∧
    State.reset.cursor = 0 ∧ State.reset.prog = initProg ∧ State.reset.upc = 0 ∧
    State.reset.wcnt = none ∧ State.reset.rsp_valid = 0

/-- In every state, whatever it is doing, a step that samples rst = 1 answers a state in which every element with a reset value holds it (lines 1 and 1, UNINIT, OK, ack 1, a cleared buffer and cursor, INIT_PROG at index 0, no wait counted, no response) and cmd_ready is 0; a running program is abandoned. The latches, whose reset value is unspecified, are not mentioned (log 7). -/
def Obligations.ResetWinsOverEveryStep : Prop :=
  ∀ s : State, (portsNow s).rst = 1 → ∃ t, step s = .next t ∧ AtReset t ∧ cmdReady t = 0

/-- For every state: RESET with rst, to a state in which every element with a reset value holds it; else, where no internal request stands (log 4), MICRO executes prog[upc] and advances upc in UNINIT and TRANSMITTING, DONE ends a program (with response OK for a host command, without one for initialization), ACCEPT latches the three operand ports and evaluates an offered command in IDLE with the success and the failure effects, and anything else changes nothing. Each step also consumes one entry of the inputs (log 3) and ends the response pulse of the step before. The consumed entry (log 3), the premise that no request stands (log 4) and the end of the pulse (log 27) are the model's, not the rule's. -/
def Obligations.StepRelationOfTheSequencer : Prop :=
  ∀ s : State,
    ((portsNow s).rst = 1 → ∃ t, step s = .next t ∧ AtReset t) ∧
    ((portsNow s).rst = 0 → s.request = none →
      -- MICRO
      (s.drv_state ≠ .idle → ∀ op, s.prog[s.upc.toNat]? = some op →
        step s = .next (match op with
          | .sda v => { beginStep s with sda_o := v, upc := s.upc + 1, trace := s.trace ++ [.sda v] }
          | .scl v => { beginStep s with scl_o := v, upc := s.upc + 1, trace := s.trace ++ [.scl v] }
          | .wait n => { beginStep s with upc := s.upc + 1, trace := s.trace ++ [.wait n] }
          | .sample => { beginStep s with
              ack := Config.sdaIn s.draws, draws := s.draws + 1, upc := s.upc + 1,
              trace := s.trace ++ [.sample (Config.sdaIn s.draws)] })) ∧
      -- DONE
      (s.drv_state = .transmitting → s.upc.toNat = s.prog.length →
        step s = .next { beginStep s with
          status := .ok, rsp_valid := 1, drv_state := .idle, trace := s.trace ++ [.response .ok] }) ∧
      (s.drv_state = .uninit → s.upc.toNat = s.prog.length →
        step s = .next { beginStep s with drv_state := .idle }) ∧
      -- ACCEPT
      (s.drv_state = .idle → (portsNow s).cmd_valid = 1 → (portsNow s).cmd_op = 0 →
        step s = .next (match brightCommand (levelOf (portsNow s).cmd_level) with
          | .ok b => { beginStep s with
              op_l := 0, level_l := (portsNow s).cmd_level, text_l := (portsNow s).cmd_text,
              prog := brightProg b, upc := 0, drv_state := .transmitting,
              trace := s.trace ++ [.acceptBrightness (portsNow s).cmd_level] }
          | .error e => { beginStep s with
              op_l := 0, level_l := (portsNow s).cmd_level, text_l := (portsNow s).cmd_text,
              status := e, rsp_valid := 1,
              trace := s.trace ++ [.acceptBrightness (portsNow s).cmd_level, .response e] })) ∧
      (s.drv_state = .idle → (portsNow s).cmd_valid = 1 → (portsNow s).cmd_op = 1 →
        step s = .next (
          let a := assembleText s.rom (portsNow s).cmd_text
          if a.code = .ok then { beginStep s with
              op_l := 1, level_l := (portsNow s).cmd_level, text_l := (portsNow s).cmd_text,
              buf := a.buf, cursor := a.cursor,
              prog := textProg a.buf.d0 a.buf.d1 a.buf.d2 a.buf.d3, upc := 0,
              drv_state := .transmitting, trace := s.trace ++ [.acceptText (portsNow s).cmd_text] }
          else { beginStep s with
              op_l := 1, level_l := (portsNow s).cmd_level, text_l := (portsNow s).cmd_text,
              buf := a.buf, cursor := a.cursor,
              status := a.code, rsp_valid := 1,
              trace := s.trace ++ [.acceptText (portsNow s).cmd_text, .response a.code] })) ∧
      -- IDLE
      (s.drv_state = .idle → (portsNow s).cmd_valid = 0 → step s = .next (beginStep s)) ∧
      (s.drv_state ≠ .idle → s.prog.length < s.upc.toNat → step s = .next (beginStep s)))

/-- For every state and every word of the opcode table that decodes to an instruction i, the step after placing the word is exec of i, at the state with the response pulse ended, no request left and, for a host command, the driver in IDLE and the command's ports latched (logs 4, 12, 20). A word that decodes to nothing is refused. How a word is placed and which format it has (logs 4, 12, 20) and the refusal (log 16) are the model's choice. -/
def Obligations.StepRunsThePlacedWord : Prop :=
  ∀ (s : State) (nbits w : Nat),
    (∀ i, decodeTableWord nbits w = some i →
      step (s.withFetchWord nbits w) =
        exec i (match tableWord nbits w with
          | .h op level text => { s with
              rsp_valid := 0, request := none, drv_state := .idle,
              op_l := op, level_l := level, text_l := text }
          | _ => { s with rsp_valid := 0, request := none })) ∧
    (decodeTableWord nbits w = none →
      ∃ r, step (s.withFetchWord nbits w) = .refused (.undefinedEncoding r))

/-- In every state with an internal request (the model's own field, log 4) and no reset, the step is exec of the instruction the request decodes to, and it is refused by name where the request decodes to nothing (log 16). -/
def Obligations.RequestIsDecodedAndExecuted : Prop :=
  ∀ (s : State) (e : Encoded), (portsNow s).rst = 0 → s.request = some e →
    step s = (match decode e with
      | .ok i => exec i { beginStep s with request := none }
      | .error r => .refused (.undefinedEncoding r))

/-- The words of SET_AUTOINC, BLANK, UNBLANK, a brightness byte, SET_START_ADDR, three font keys, START, SET_TEXT, a SET_BRIGHTNESS, a SEND_BYTE and a text frame decode to the instructions of their rows; a byte that is no command is rejected at the head of a frame. The model's choice, not the table's: that a bare word has the format its width and bits suggest, so that the word 1 is SET_TEXT and not STOP (log 12), that 0x8F is UNBLANK and a key's code its font row (log 13), that the 40-bit word has the first byte leftmost (log 14, deduced). -/
def Obligations.TableWordsDecodeToTheirRows : Prop :=
  decodeTableWord 8 0b01000000 = some .setAutoinc ∧
    decodeTableWord 8 0b10000000 = some .blank ∧
    decodeTableWord 8 0b10001111 = some .unblank ∧
    decodeTableWord 8 0b10001100 = some (.brightnessByte 4) ∧
    decodeTableWord 8 0b11000000 = some .setStartAddr ∧
    decodeTableWord 8 0b00110010 = some .font2 ∧
    decodeTableWord 8 0b01100010 = some .font_b ∧
    decodeTableWord 8 0b00101110 = some .fontDot ∧
    decodeTableWord 8 0b0 = some .start ∧
    decodeTableWord 8 0b1 = some (.setText []) ∧
    decodeTableWord 16 0b000000101 = some (.setBrightness 5) ∧
    decodeTableWord 16 0b1110001100 = some (.sendByte 0x8C 1 1) ∧
    decodeTableWord 40 0xC006DB4F66 = some (.textFrame 0x06 0xDB 0x4F 0x66) ∧
    decode (.w 0b11000001) = .error (.notACommandByte 0xC1)

/-- exec of each micro-op answers the next state in which SDA(v) has written sda_o, SCL(v) has written scl_o, WAIT(n) has written no state element, SAMPLE has written the value of the data line to ack and taken one draw; each leaves its entry in the trace, a write that changes no level too, and nothing else changes. -/
def Obligations.MicroOperationsHaveTheirEffect : Prop :=
  ∀ s : State,
    (∀ v, exec (.sda v) s = .next { s with sda_o := v, trace := s.trace ++ [.sda v] }) ∧
    (∀ v, exec (.scl v) s = .next { s with scl_o := v, trace := s.trace ++ [.scl v] }) ∧
    (∀ n, exec (.wait n) s = .next { s with trace := s.trace ++ [.wait n] }) ∧
    exec .sample s = .next { s with
      ack := Config.sdaIn s.draws, draws := s.draws + 1,
      trace := s.trace ++ [.sample (Config.sdaIn s.draws)] }

/-- From every state START leaves scl_o = 0 and sda_o = 0 and has executed exactly SDA(0), WAIT(300), SCL(0), WAIT(300); nothing else changes, ack among it. It is 4 micro-ops of 600 us, and from idle the data output falls while the clock output is high. -/
def Obligations.StartExecutesItsFourMicroOps : Prop :=
  (∀ s : State, exec .start s = .next { s with
      scl_o := 0, sda_o := 0,
      trace := s.trace ++ [.sda 0, .wait 300, .scl 0, .wait 300] }) ∧
    startOps.length = 4 ∧ nominalUs startOps = 600 ∧
    waveform 1 1 0 startOps = [⟨1, 1, 0⟩, ⟨1, 0, 300⟩, ⟨0, 0, 300⟩]

/-- From every state STOP leaves scl_o = 1 and sda_o = 1 and has executed exactly SCL(1), WAIT(300), SDA(1), WAIT(300); nothing else changes. It is 4 micro-ops of 600 us. Entered at (0, 0) the data output rises while the clock is high; entered at (0, 1) there is no data edge. -/
def Obligations.StopReturnsTheLinesToIdle : Prop :=
  (∀ s : State, exec .stop s = .next { s with
      scl_o := 1, sda_o := 1,
      trace := s.trace ++ [.scl 1, .wait 300, .sda 1, .wait 300] }) ∧
    stopOps.length = 4 ∧ nominalUs stopOps = 600 ∧
    waveform 0 0 0 stopOps = [⟨0, 0, 0⟩, ⟨1, 0, 300⟩, ⟨1, 1, 300⟩] ∧
    waveform 0 1 0 stopOps = [⟨0, 1, 0⟩, ⟨1, 1, 600⟩]

/-- From every state BIT(b) leaves sda_o = b and scl_o = 0 and has executed its six micro-ops; nothing else changes. Entered with the clock low, the data output is stable for at least 100 us before the clock rises and while it is high for 300 us. -/
def Obligations.BitClocksOneDataBit : Prop :=
  (∀ (b : Level) (s : State), exec (.bit b) s = .next { s with
      scl_o := 0, sda_o := b,
      trace := s.trace ++ [.wait 200, .sda b, .wait 100, .scl 1, .wait 300, .scl 0] }) ∧
    (∀ b d : Level, waveform 0 d 0 (bitOps b) =
      if b = d then [⟨0, d, 300⟩, ⟨1, d, 300⟩, ⟨0, d, 0⟩]
      else [⟨0, d, 200⟩, ⟨0, b, 100⟩, ⟨1, b, 300⟩, ⟨0, b, 0⟩])

/-- From every state ACK_PHASE writes ack with the value of the data line at its one sample, leaves scl_o = 0 and does not write sda_o; the sample comes before the clock rises, and nothing else changes. Its waits sum to 1200 us. -/
def Obligations.AckPhaseSamplesBeforeTheNinthPulse : Prop :=
  (∀ s : State, exec .ackPhase s = .next { s with
      scl_o := 0, ack := Config.sdaIn s.draws, draws := s.draws + 1,
      trace := s.trace ++ [.wait 300, .sample (Config.sdaIn s.draws), .scl 1, .wait 600, .scl 0,
        .wait 300] }) ∧
    sdaWrites ackOps = [] ∧ ackOps.length = 6 ∧ nominalUs ackOps = 1200

/-- From every state SEND_BYTE writes sda_o, scl_o and ack alone: with STOP both lines end at 1, without it the clock ends at 0 and the data output at bit 7 of the byte; ack holds the value of its one sample; its micro-ops are in the trace; nothing else changes. It has 55, 59 or 63 micro-ops. The list is START if s, the bits of v from bit 0, the ack phase, STOP if p, and WAIT(300). -/
def Obligations.SendByteResult : Prop :=
  (∀ (v : Byte) (s p : BitVec 1) (σ : State), exec (.sendByte v s p) σ = .next { σ with
      scl_o := p, sda_o := if p = 1 then 1 else bitAt v 7, ack := Config.sdaIn σ.draws,
      draws := σ.draws + 1, trace := σ.trace ++ eventsOf (sendByteOps v s p) σ.draws }) ∧
    (∀ (v : Byte) (s p : BitVec 1),
      sendByteOps v s p = (if s = 1 then startOps else []) ++
        (List.range 8).flatMap (fun k => bitOps (bitAt v k)) ++ ackOps ++
        (if p = 1 then stopOps else []) ++ [.wait 300] ∧
      (sendByteOps v s p).length = 55 + (if s = 1 then 4 else 0) + (if p = 1 then 4 else 0) ∧
      sampleCount (sendByteOps v s p) = 1)

/-- The levels the bits of a byte write to the data line are v[0] to v[7] in this order; the data output at the rising clock edges of a SEND_BYTE shows them in the same order and then v[7] for the ack pulse (and once more at the clock edge of a STOP); after the eighth bit and after the ack phase the data output is v[7]. -/
def Obligations.BitsGoLeastSignificantFirst : Prop :=
  ∀ v : Byte,
    sdaWrites (dataOps v) = (List.range 8).map (bitAt v) ∧
    (∀ cd : Level × Level, endLevels (dataOps v) cd = (0, bitAt v 7) ∧
      endLevels (dataOps v ++ ackOps) cd = (0, bitAt v 7)) ∧
    (∀ p : BitVec 1, clockedLevels 1 1 (sendByteOps v 1 p) =
      (List.range 8).map (bitAt v) ++ [bitAt v 7] ++ (if p = 1 then [bitAt v 7] else [])) ∧
    (∀ (p : BitVec 1) (d : Level), clockedLevels 0 d (sendByteOps v 0 p) =
      (List.range 8).map (bitAt v) ++ [bitAt v 7] ++ (if p = 1 then [bitAt v 7] else []))

/-- A SEND_BYTE writes the data line 8 times for the bits and the clock line 18 times (9 rising, 9 falling), plus one write of each line in START and in STOP when selected, and samples once. -/
def Obligations.LineAccessesOfOneByte : Prop :=
  ∀ (v : Byte) (s p : BitVec 1),
    (sdaWrites (sendByteOps v s p)).length = 8 + s.toNat + p.toNat ∧
    (sclWrites (sendByteOps v s p)).length = 18 + s.toNat + p.toNat ∧
    (sclWrites (dataOps v ++ ackOps)).count 1 = 9 ∧ (sclWrites (dataOps v ++ ackOps)).count 0 = 9 ∧
    sampleCount (sendByteOps v s p) = 1

/-- For every byte the wait labels of SEND_BYTE(v, 0, 0) are (200, 100, 300) eight times, then 300, 600, 300, then 300: 28 waits; nominal durations are 600 for a BIT, 4800 for the eight, 1200 for the ack phase, 300 for the trailing wait, 6300, 6900, 6900 and 7500 us for the four flag combinations. -/
def Obligations.WaitLabelsAndNominalDurations : Prop :=
  ∀ v : Byte,
    waitsOf (sendByteOps v 0 0) = (List.replicate 8 [200, 100, 300]).flatten ++ [300, 600, 300, 300] ∧
    (waitsOf (sendByteOps v 0 0)).length = 28 ∧
    (∀ b, nominalUs (bitOps b) = 600) ∧ nominalUs (dataOps v) = 4800 ∧ nominalUs ackOps = 1200 ∧
    nominalUs (sendByteOps v 0 0) = 6300 ∧ nominalUs (sendByteOps v 1 0) = 6900 ∧
    nominalUs (sendByteOps v 0 1) = 6900 ∧ nominalUs (sendByteOps v 1 1) = 7500

/-- Every SEND_BYTE has one sample, at which the clock output is 0 and the data output is bit 7 of the byte, whatever the lines were on entry; so under the line contract (wired AND) the sampled level is 0 if that bit is 0 and the device's drive if it is 1. -/
def Obligations.SampleSeesTheCoresOwnDriver : Prop :=
  ∀ (v : Byte) (s p : BitVec 1), ∃ before after : List MicroOp,
    sendByteOps v s p = before ++ .sample :: after ∧ sampleCount before = 0 ∧ sampleCount after = 0 ∧
    (∀ cd : Level × Level, endLevels before cd = (0, bitAt v 7)) ∧
    (∀ (cd : Level × Level) (dev : Level), wiredAnd (endLevels before cd).2 dev =
      if bitAt v 7 = 0 then 0 else dev)

/-- From every state each of the four single-byte commands executes SEND_BYTE of its byte with START and STOP: the lines end idle, ack holds the one sample, nothing else changes. The bytes are 0x8F, 0x80, 0x40 and 0x88 + b. -/
def Obligations.SingleByteCommandsSendTheirFrame : Prop :=
  ∀ s : State,
    exec .unblank s = .next { s with
      scl_o := 1, sda_o := 1, ack := Config.sdaIn s.draws, draws := s.draws + 1,
      trace := s.trace ++ eventsOf (sendByteOps 0x8F 1 1) s.draws } ∧
    exec .blank s = .next { s with
      scl_o := 1, sda_o := 1, ack := Config.sdaIn s.draws, draws := s.draws + 1,
      trace := s.trace ++ eventsOf (sendByteOps 0x80 1 1) s.draws } ∧
    exec .setAutoinc s = .next { s with
      scl_o := 1, sda_o := 1, ack := Config.sdaIn s.draws, draws := s.draws + 1,
      trace := s.trace ++ eventsOf (sendByteOps 0x40 1 1) s.draws } ∧
    ∀ b : BitVec 3, exec (.brightnessByte b) s = .next { s with
      scl_o := 1, sda_o := 1, ack := Config.sdaIn s.draws, draws := s.draws + 1,
      trace := s.trace ++ eventsOf (sendByteOps (0x88 + b.setWidth 8) 1 1) s.draws }

/-- From every state SET_START_ADDR sends 0xC0 with START and no STOP and leaves the lines at (0, 1); DATA(d) sends d without either and leaves the clock low and the data output at bit 7 of d; DATA_LAST(d) sends d with STOP and leaves the lines idle. ack holds the sample; nothing else changes. -/
def Obligations.TextFrameBytesKeepTheFrameOpen : Prop :=
  ∀ s : State,
    exec .setStartAddr s = .next { s with
      scl_o := 0, sda_o := 1, ack := Config.sdaIn s.draws, draws := s.draws + 1,
      trace := s.trace ++ eventsOf (sendByteOps 0xC0 1 0) s.draws } ∧
    (∀ d : Byte, exec (.data d) s = .next { s with
      scl_o := 0, sda_o := bitAt d 7, ack := Config.sdaIn s.draws, draws := s.draws + 1,
      trace := s.trace ++ eventsOf (sendByteOps d 0 0) s.draws }) ∧
    ∀ d : Byte, exec (.dataLast d) s = .next { s with
      scl_o := 1, sda_o := 1, ack := Config.sdaIn s.draws, draws := s.draws + 1,
      trace := s.trace ++ eventsOf (sendByteOps d 0 1) s.draws }

/-- From every state INIT_SEQ leaves both lines at 1 and ack at its second sample; the trace gains SEND_BYTE(0x8F, 1, 1), SEND_BYTE(0x40, 1, 1) and WAIT(10000) in this order; nothing else changes. It is 127 micro-ops of nominally 25 000 us with two samples. -/
def Obligations.InitSequenceResult : Prop :=
  (∀ s : State, exec .initSeq s = .next { s with
      scl_o := 1, sda_o := 1, ack := Config.sdaIn (s.draws + 1), draws := s.draws + 2,
      trace := s.trace ++ eventsOf (sendByteOps 0x8F 1 1) s.draws ++
        eventsOf (sendByteOps 0x40 1 1) (s.draws + 1) ++ [.wait 10000] }) ∧
    initSeqOps.length = 127 ∧ nominalUs initSeqOps = 25000 ∧ sampleCount initSeqOps = 2

/-- For every integer level and every state: level <= 0 sends 0x80; 1 <= level <= 8 sends 0x88 + (level - 1); level >= 9 sends nothing and reports INVALID_BRIGHTNESS_LEVEL: only the status and the response pulse change. That the operation taken alone has this effect in every driver state is the model's choice (log 22). -/
def Obligations.BrightnessSelectionIsThreeWay : Prop :=
  ∀ (level : Int) (s : State),
    (level ≤ 0 → exec (.brightSelect level) s = .next { s with
      scl_o := 1, sda_o := 1, ack := Config.sdaIn s.draws, draws := s.draws + 1,
      trace := s.trace ++ eventsOf (sendByteOps 0x80 1 1) s.draws }) ∧
    (1 ≤ level → level ≤ 8 → exec (.brightSelect level) s = .next { s with
      scl_o := 1, sda_o := 1, ack := Config.sdaIn s.draws, draws := s.draws + 1,
      trace := s.trace ++ eventsOf (sendByteOps (0x88 + BitVec.ofInt 8 (level - 1)) 1 1) s.draws }) ∧
    (9 ≤ level → exec (.brightSelect level) s = .next { s with
      status := .invalidBrightnessLevel, rsp_valid := 1,
      trace := s.trace ++ [.response .invalidBrightnessLevel] })

/-- From every state TEXT_FRAME(d0, d1, d2, d3) leaves both lines at 1 and ack at its fifth sample; the trace gains SEND_BYTE(0xC0, 1, 0), of d0, d1, d2 with (0, 0) and of d3 with (0, 1) in this order; nothing else changes. It is 283 micro-ops of nominally 32 700 us with five samples. -/
def Obligations.TextFrameResult : Prop :=
  ∀ d0 d1 d2 d3 : Byte,
    (∀ s : State, exec (.textFrame d0 d1 d2 d3) s = .next { s with
      scl_o := 1, sda_o := 1, ack := Config.sdaIn (s.draws + 4), draws := s.draws + 5,
      trace := s.trace ++ eventsOf (sendByteOps 0xC0 1 0) s.draws ++
        eventsOf (sendByteOps d0 0 0) (s.draws + 1) ++ eventsOf (sendByteOps d1 0 0) (s.draws + 2) ++
        eventsOf (sendByteOps d2 0 0) (s.draws + 3) ++ eventsOf (sendByteOps d3 0 1) (s.draws + 4) }) ∧
    (textFrameOps d0 d1 d2 d3).length = 283 ∧ nominalUs (textFrameOps d0 d1 d2 d3) = 32700 ∧
    sampleCount (textFrameOps d0 d1 d2 d3) = 5

/-- Nine clock pulses being a byte with its ack slot, least significant bit first, the levels of the data output at the rising clock edges of a text program spell 0xC0, d0, d1, d2, d3, and those of a single-byte frame spell its byte, for every value of the bytes. That a receiver takes a bit at the rising clock edge is the model's choice (log 28). -/
def Obligations.ReceiverReadsTheFrameBack : Prop :=
  (∀ d0 d1 d2 d3 : Byte, receive (textProg d0 d1 d2 d3) = [0xC0, d0, d1, d2, d3]) ∧
    ∀ b : Byte, receive (brightProg b) = [b]

/-- For every level from 1 to 8 the wire byte is 0x88 | (level - 1), which equals 0x88 + (level - 1); its bits 7 to 3 are 10001 and its bits 2 to 0 are level - 1; it is the byte the encoder gives the operation and the byte SET_BRIGHTNESS chooses. -/
def Obligations.BrightnessByteOfALevel : Prop :=
  ∀ level : Int, 1 ≤ level → level ≤ 8 →
    let byte : Byte := 0x88 ||| BitVec.ofInt 8 (level - 1)
    byte = 0x88 + BitVec.ofInt 8 (level - 1) ∧ byte.extractLsb' 3 5 = 0b10001 ∧
      byte.extractLsb' 0 3 = BitVec.ofInt 3 (level - 1) ∧
      encode (.brightnessByte (BitVec.ofInt 3 (level - 1))) = some (.w byte) ∧
      brightCommand level = .ok byte

/-- From every state and for every code ENCODE(c) returns FONT[c], the pattern or none, in the model's result field (log 8); no other state changes. ENCODE(0x32) is 0x5B and ENCODE of Z is none under the default ROM. The ROM is the parameter, a field no step writes (log 9). -/
def Obligations.EncodeReturnsTheRomCell : Prop :=
  (∀ (c : Byte) (s : State), exec (.encode c) s = .next { s with pat := romRead s.rom c }) ∧
    romRead fontRom 0x32 = some 0x5B ∧ romRead fontRom 0x5A = none

/-- From every state, whatever its ROM, each of these fourteen rows returns the cell of its character's code in the model's result field (log 8) and changes nothing else, and the default ROM has the default pattern there. The patterns are the spec's default table, which it marks as general knowledge (log 9), and the codes are ASCII (log 10). -/
def Obligations.FontCellsOfDigitsAndSigns : Prop :=
  (∀ s : State,
    exec .font0 s = .next { s with pat := romRead s.rom 0x30 } ∧
    exec .font1 s = .next { s with pat := romRead s.rom 0x31 } ∧
    exec .font2 s = .next { s with pat := romRead s.rom 0x32 } ∧
    exec .font3 s = .next { s with pat := romRead s.rom 0x33 } ∧
    exec .font4 s = .next { s with pat := romRead s.rom 0x34 } ∧
    exec .font5 s = .next { s with pat := romRead s.rom 0x35 } ∧
    exec .font6 s = .next { s with pat := romRead s.rom 0x36 } ∧
    exec .font7 s = .next { s with pat := romRead s.rom 0x37 } ∧
    exec .font8 s = .next { s with pat := romRead s.rom 0x38 } ∧
    exec .font9 s = .next { s with pat := romRead s.rom 0x39 } ∧
    exec .fontSpace s = .next { s with pat := romRead s.rom 0x20 } ∧
    exec .fontMinus s = .next { s with pat := romRead s.rom 0x2D } ∧
    exec .fontEquals s = .next { s with pat := romRead s.rom 0x3D } ∧
    exec .fontDot s = .next { s with pat := romRead s.rom 0x2E }) ∧
  romRead fontRom 0x30 = some 0x3F ∧ romRead fontRom 0x31 = some 0x06 ∧
  romRead fontRom 0x32 = some 0x5B ∧ romRead fontRom 0x33 = some 0x4F ∧
  romRead fontRom 0x34 = some 0x66 ∧ romRead fontRom 0x35 = some 0x6D ∧
  romRead fontRom 0x36 = some 0x7D ∧ romRead fontRom 0x37 = some 0x07 ∧
  romRead fontRom 0x38 = some 0x7F ∧ romRead fontRom 0x39 = some 0x6F ∧
  romRead fontRom 0x20 = some 0x00 ∧ romRead fontRom 0x2D = some 0x40 ∧
  romRead fontRom 0x3D = some 0x48 ∧ romRead fontRom 0x2E = some 0x80

/-- From every state, whatever its ROM, each of these eleven rows returns the cell of its letter's code in the model's result field (log 8) and changes nothing else, and the default ROM has the default pattern there. The patterns are the spec's default table, which it marks as general knowledge (log 9), and the codes are ASCII (log 10). -/
def Obligations.FontCellsOfUpperCaseLetters : Prop :=
  (∀ s : State,
    exec .font_A s = .next { s with pat := romRead s.rom 0x41 } ∧
    exec .font_C s = .next { s with pat := romRead s.rom 0x43 } ∧
    exec .font_D s = .next { s with pat := romRead s.rom 0x44 } ∧
    exec .font_E s = .next { s with pat := romRead s.rom 0x45 } ∧
    exec .font_F s = .next { s with pat := romRead s.rom 0x46 } ∧
    exec .font_H s = .next { s with pat := romRead s.rom 0x48 } ∧
    exec .font_I s = .next { s with pat := romRead s.rom 0x49 } ∧
    exec .font_J s = .next { s with pat := romRead s.rom 0x4A } ∧
    exec .font_L s = .next { s with pat := romRead s.rom 0x4C } ∧
    exec .font_P s = .next { s with pat := romRead s.rom 0x50 } ∧
    exec .font_Y s = .next { s with pat := romRead s.rom 0x59 }) ∧
  romRead fontRom 0x41 = some 0x77 ∧ romRead fontRom 0x43 = some 0x39 ∧
  romRead fontRom 0x44 = some 0x5E ∧ romRead fontRom 0x45 = some 0x79 ∧
  romRead fontRom 0x46 = some 0x71 ∧ romRead fontRom 0x48 = some 0x76 ∧
  romRead fontRom 0x49 = some 0x30 ∧ romRead fontRom 0x4A = some 0x1E ∧
  romRead fontRom 0x4C = some 0x38 ∧ romRead fontRom 0x50 = some 0x73 ∧
  romRead fontRom 0x59 = some 0x6E

/-- From every state, whatever its ROM, each of these eleven rows returns the cell of its letter's code in the model's result field (log 8) and changes nothing else, and the default ROM has the default pattern there. The patterns are the spec's default table, which it marks as general knowledge (log 9), and the codes are ASCII (log 10). -/
def Obligations.FontCellsOfLowerCaseLetters : Prop :=
  (∀ s : State,
    exec .font_b s = .next { s with pat := romRead s.rom 0x62 } ∧
    exec .font_c s = .next { s with pat := romRead s.rom 0x63 } ∧
    exec .font_d s = .next { s with pat := romRead s.rom 0x64 } ∧
    exec .font_h s = .next { s with pat := romRead s.rom 0x68 } ∧
    exec .font_i s = .next { s with pat := romRead s.rom 0x69 } ∧
    exec .font_l s = .next { s with pat := romRead s.rom 0x6C } ∧
    exec .font_n s = .next { s with pat := romRead s.rom 0x6E } ∧
    exec .font_o s = .next { s with pat := romRead s.rom 0x6F } ∧
    exec .font_r s = .next { s with pat := romRead s.rom 0x72 } ∧
    exec .font_t s = .next { s with pat := romRead s.rom 0x74 } ∧
    exec .font_u s = .next { s with pat := romRead s.rom 0x75 }) ∧
  romRead fontRom 0x62 = some 0x7C ∧ romRead fontRom 0x63 = some 0x58 ∧
  romRead fontRom 0x64 = some 0x5E ∧ romRead fontRom 0x68 = some 0x74 ∧
  romRead fontRom 0x69 = some 0x10 ∧ romRead fontRom 0x6C = some 0x30 ∧
  romRead fontRom 0x6E = some 0x54 ∧ romRead fontRom 0x6F = some 0x5C ∧
  romRead fontRom 0x72 = some 0x50 ∧ romRead fontRom 0x74 = some 0x78 ∧
  romRead fontRom 0x75 = some 0x1C

/-- The default ROM is a value of the parameter, every value of the parameter meets R153, and for every ROM that meets R153: a code reads a pattern exactly if it is one of the 36 keys; the pattern of the decimal point is 0x80; bit 7 of any other pattern is 0. -/
def Obligations.EveryAdmittedRomMeetsItsRequirements : Prop :=
  fontRomWf fontRom = true ∧ fontKeys.length = 36 ∧
    (∀ rom : List Host.Cell, fontRomWf rom = true → fontRomRequirements rom = true) ∧
    ∀ rom : List Host.Cell, fontRomRequirements rom = true → ∀ c : Byte,
      ((romRead rom c).isSome = true ↔ c ∈ fontKeys) ∧
      ∀ p, romRead rom c = some p → (c = Config.dotChar → p = 0x80) ∧ (c ≠ Config.dotChar → p.msb = false)

/-- From every state ASSEMBLE(text) writes buf and cursor with values that depend on the text and the ROM alone; on success nothing else changes; on an error the status is that error and the response pulses (log 22), and nothing else changes: no line, no ack, no program. -/
def Obligations.AssembleWritesBufferAndCursor : Prop :=
  ∀ (text : List Byte) (s : State),
    ((assembleText s.rom text).code = .ok → exec (.assemble text) s = .next { s with
      buf := (assembleText s.rom text).buf, cursor := (assembleText s.rom text).cursor }) ∧
    ((assembleText s.rom text).code ≠ .ok → exec (.assemble text) s = .next { s with
      buf := (assembleText s.rom text).buf, cursor := (assembleText s.rom text).cursor,
      status := (assembleText s.rom text).code, rsp_valid := 1,
      trace := s.trace ++ [.response (assembleText s.rom text).code] })

/-- For every ROM and every text made of groups, each a key other than the dot followed by any number of dots: with at most four groups (and anything after four) ASSEMBLE succeeds, the cursor is the number of groups, position k holds the pattern of the k-th character with 0x80 added exactly if a dot followed it, the fourth position never gets the dot, and positions no character reached are 0. -/
def Obligations.TextInGroupsAssembles : Prop :=
  ∀ (rom : List Host.Cell) (gs : List (Byte × Nat)) (tail : List Byte),
    GroupsOk rom gs → gs.length ≤ 4 → (tail = [] ∨ gs.length = 4) →
    assembleText rom (groupsText gs ++ tail) =
      ⟨groupBuffer rom gs, BitVec.ofNat 3 gs.length, .ok⟩

/-- For every ROM and text: the result is INVALID_DECIMAL_POINT_PLACEMENT exactly if the text begins with a decimal point; it is UNSUPPORTED_CHARACTER exactly if at most three characters with their dots, all keys, are followed by a character that is neither the dot nor a key, and then the buffer and the cursor are those of the characters before it. -/
def Obligations.FirstOffendingCharacterIsReported : Prop :=
  ∀ (rom : List Host.Cell) (text : List Byte),
    ((assembleText rom text).code = .invalidDecimalPointPlacement ↔ text.head? = some Config.dotChar) ∧
    ((assembleText rom text).code = .unsupportedCharacter ↔
      ∃ (gs : List (Byte × Nat)) (c : Byte) (tail : List Byte),
        text = groupsText gs ++ c :: tail ∧ GroupsOk rom gs ∧ gs.length ≤ 3 ∧ c ≠ Config.dotChar ∧
        romRead rom c = none ∧
        (assembleText rom text).buf = groupBuffer rom gs ∧
        (assembleText rom text).cursor = BitVec.ofNat 3 gs.length) ∧
    (assembleText rom text).code ≠ .invalidBrightnessLevel

/-- For every ROM that meets R153 and every text, whatever the result: bit 7 of buf[3] is 0, and the cursor is at most 4. -/
def Obligations.LastDigitNeverCarriesADot : Prop :=
  ∀ (rom : List Host.Cell) (text : List Byte), fontRomRequirements rom = true →
    (assembleText rom text).buf.d3.msb = false ∧ (assembleText rom text).cursor.toNat ≤ 4

/-- For every ROM that meets R153 and every text of at most four groups: for each of the first three positions a character reached, bit 7 of the digit is 1 exactly if a dot followed the character. -/
def Obligations.DotBitShowsExactlyTheDots : Prop :=
  ∀ (rom : List Host.Cell) (gs : List (Byte × Nat)), fontRomRequirements rom = true → GroupsOk rom gs →
    gs.length ≤ 4 → ∀ (k : Nat) (g : Byte × Nat), k ≤ 2 → gs[k]? = some g →
      (((assembleText rom (groupsText gs)).buf.get k).msb = true ↔ 0 < g.2)

/-- From every state INIT sets prog to INIT_PROG, upc to 0 and the driver state to UNINIT and changes nothing else; on the reset state it changes nothing at all. INIT_PROG is the two framed bytes 0x8F and 0x40 and the settle wait. That the operation taken alone does so in every driver state is the model's choice (log 22). -/
def Obligations.InitLoadsTheInitializationProgram : Prop :=
  (∀ s : State, exec .init s = .next { s with prog := initProg, upc := 0, drv_state := .uninit }) ∧
    exec .init State.reset = .next State.reset ∧
    initProg = sendByteOps 0x8F 1 1 ++ sendByteOps 0x40 1 1 ++ [.wait 10000]

/-- In every IDLE state SET_BRIGHTNESS of a port value that reads as level <= 0 loads BRIGHT_PROG(0x80), and of one that reads as 1 to 8 loads BRIGHT_PROG(0x88 + (level - 1)): upc is 0, the driver is TRANSMITTING, op and level are latched; the lines, ack, status, buf and cursor do not change. That the text latch stays as it is, in the meaning taken alone, is the model's choice (log 7). -/
def Obligations.SetBrightnessBeginsItsProgram : Prop :=
  ∀ (level : BitVec 8) (s : State), s.drv_state = .idle →
    (level.toInt ≤ 0 → exec (.setBrightness level) s = .next { s with
      op_l := 0, level_l := level, prog := brightProg 0x80, upc := 0, drv_state := .transmitting,
      trace := s.trace ++ [.acceptBrightness level] }) ∧
    (1 ≤ level.toInt → level.toInt ≤ 8 → exec (.setBrightness level) s = .next { s with
      op_l := 0, level_l := level, prog := brightProg (0x88 + (level - 1)), upc := 0,
      drv_state := .transmitting, trace := s.trace ++ [.acceptBrightness level] })

/-- In every IDLE state SET_TEXT of a text that assembles writes buf and cursor, loads TEXT_PROG of the four digits at index 0 and goes to TRANSMITTING; op and text are latched; the lines, ack and status do not change. That the level latch stays as it is, in the meaning taken alone, is the model's choice (log 7). -/
def Obligations.SetTextBeginsItsProgram : Prop :=
  ∀ (text : List Byte) (s : State), s.drv_state = .idle → (assembleText s.rom text).code = .ok →
    let b := (assembleText s.rom text).buf
    exec (.setText text) s = .next { s with
      op_l := 1, text_l := text, buf := b, cursor := (assembleText s.rom text).cursor,
      prog := textProg b.d0 b.d1 b.d2 b.d3, upc := 0, drv_state := .transmitting,
      trace := s.trace ++ [.acceptText text] }

/-- In every IDLE state, SET_BRIGHTNESS of a level of 9 or more and SET_TEXT of a text that does not assemble write the status with their error, pulse rsp_valid and stay in IDLE; prog, upc, both lines and ack do not change and no micro-op enters the trace; beside the latches, only buf and cursor hold what ASSEMBLE wrote. That the latch of the other operand stays as it is, in the meaning taken alone, is the model's choice (log 7). -/
def Obligations.FailedCommandHasNoBusActivity : Prop :=
  ∀ s : State, s.drv_state = .idle →
    (∀ level : BitVec 8, 9 ≤ level.toInt → exec (.setBrightness level) s = .next { s with
      op_l := 0, level_l := level, status := .invalidBrightnessLevel, rsp_valid := 1,
      trace := s.trace ++ [.acceptBrightness level, .response .invalidBrightnessLevel] }) ∧
    (∀ text : List Byte, (assembleText s.rom text).code ≠ .ok → exec (.setText text) s = .next { s with
      op_l := 1, text_l := text, buf := (assembleText s.rom text).buf,
      cursor := (assembleText s.rom text).cursor, status := (assembleText s.rom text).code,
      rsp_valid := 1,
      trace := s.trace ++ [.acceptText text, .response (assembleText s.rom text).code] })

/-- In every state in which the driver is not IDLE, both host commands leave the state as it is, and the step does not depend on what the command port carries. That the meanings taken alone change nothing then is deduced (log 23). -/
def Obligations.CommandOfferedWhileBusyIsIgnored : Prop :=
  ∀ s : State, s.drv_state ≠ .idle →
    (∀ level, exec (.setBrightness level) s = .next s) ∧ (∀ text, exec (.setText text) s = .next s) ∧
    ∀ (p q : Inputs) (rest : List Inputs), p.rst = 0 → q.rst = 0 →
      step { s with inputs := p :: rest } = step { s with inputs := q :: rest }

/-- State.reset meets the invariant, and so does the state after reset with any inputs to come, any count of draws and any ROM the parameter FONT_ROM admits. -/
def Obligations.InvariantHoldsAtReset : Prop :=
  Inv State.reset ∧ ∀ (ins : List Inputs) (n : Nat) (rom : List Host.Cell), fontRomWf rom = true →
    Inv { State.reset with inputs := ins, draws := n, rom := rom }

/-- From every state that meets the invariant (cursor at most 4, upc within prog, idle lines in IDLE, UNINIT only during INIT_PROG, prog one of the three kinds and its rest leading the lines to idle, no dot on the fourth digit, a ROM the parameter admits, no wait counted, no internal request), a step answers a next state, and it meets the invariant. -/
def Obligations.EveryStepKeepsTheInvariant : Prop :=
  ∀ s : State, Inv s → ∃ t, step s = .next t ∧ Inv t

/-- Every operation of the opcode table answers a next state from every state, and a step without an internal request answers a next state from every state. -/
def Obligations.EveryOperationCompletes : Prop :=
  (∀ (i : Instr) (s : State), ∃ t, exec i s = .next t) ∧
    ∀ s : State, s.request = none → ∃ t, step s = .next t

/-- In every step without an internal request: reset leads to UNINIT; UNINIT and TRANSMITTING lead to IDLE exactly when the program has ended and else stay; IDLE leads to TRANSMITTING exactly when a command is offered and its validation succeeds, and else stays. -/
def Obligations.DriverStateTransitions : Prop :=
  ∀ s t : State, s.request = none → step s = .next t →
    ((portsNow s).rst = 1 → t.drv_state = .uninit) ∧
    ((portsNow s).rst = 0 →
      (s.drv_state = .uninit →
        t.drv_state = if s.upc.toNat = s.prog.length then .idle else .uninit) ∧
      (s.drv_state = .transmitting →
        t.drv_state = if s.upc.toNat = s.prog.length then .idle else .transmitting) ∧
      (s.drv_state = .idle →
        t.drv_state =
          if (portsNow s).cmd_valid = 1 ∧
            (((portsNow s).cmd_op = 0 ∧ (portsNow s).cmd_level.toInt ≤ 8) ∨
              ((portsNow s).cmd_op = 1 ∧ (assembleText s.rom (portsNow s).cmd_text).code = .ok))
          then .transmitting else .idle))

/-- In every step without an internal request and without reset: rsp_valid is 1 afterwards exactly if a transmission completes or an offered command fails its validation in IDLE. The status is then OK for the completed transmission, INVALID_BRIGHTNESS_LEVEL for a failed SET_BRIGHTNESS and the error of the assembly for a failed SET_TEXT; in every other step it keeps its value. That the pulse is seen in the state the finishing step leaves is deduced (log 27). -/
def Obligations.EachResponseIsOnePulse : Prop :=
  ∀ s t : State, s.request = none → (portsNow s).rst = 0 → step s = .next t →
    (t.rsp_valid = 1 ↔
      (s.drv_state = .transmitting ∧ s.upc.toNat = s.prog.length) ∨
      (s.drv_state = .idle ∧ (portsNow s).cmd_valid = 1 ∧
        (((portsNow s).cmd_op = 0 ∧ 9 ≤ (portsNow s).cmd_level.toInt) ∨
          ((portsNow s).cmd_op = 1 ∧ (assembleText s.rom (portsNow s).cmd_text).code ≠ .ok)))) ∧
    (t.rsp_valid = 0 → t.status = s.status) ∧
    (t.rsp_valid = 1 → s.drv_state = .transmitting → t.status = .ok) ∧
    (t.rsp_valid = 1 → s.drv_state = .idle → (portsNow s).cmd_op = 0 → t.status = .invalidBrightnessLevel) ∧
    (t.rsp_valid = 1 → s.drv_state = .idle → (portsNow s).cmd_op = 1 →
      t.status = (assembleText s.rom (portsNow s).cmd_text).code)

/-- In every IDLE state a step without reset and without an internal request leaves both line outputs, ack and the count of draws as they are, whatever the host offers, and the trace gains no micro-op: only the acceptance of a command and a response. -/
def Obligations.LinesMoveOnlyInAProgram : Prop :=
  ∀ s t : State, s.request = none → (portsNow s).rst = 0 → s.drv_state = .idle → step s = .next t →
    t.scl_o = s.scl_o ∧ t.sda_o = s.sda_o ∧ t.ack = s.ack ∧ t.draws = s.draws ∧
      ∃ events, t.trace = s.trace ++ events ∧ microOps events = []

/-- Two states without an internal request that differ at most in ack, in the draws still to come and in the values their traces' samples read step to two next states that again differ at most in these: no retry, no abort, no status, no response depends on an acknowledgement. And in every state, whatever it is doing, a step answers the same at either level of the clock line input scl_i: the CORE does not detect a device that holds the clock low. -/
def Obligations.TheAckIsNeverActedOn : Prop :=
  (∀ s t : State, s.request = none → SameButAck s t →
    ∃ s' t', step s = .next s' ∧ step t = .next t' ∧ SameButAck s' t') ∧
    ∀ (s : State) (p : Inputs) (level : Level) (rest : List Inputs),
      step { s with inputs := { p with scl_i := level } :: rest } = step { s with inputs := p :: rest }

/-- From every state in UNINIT or TRANSMITTING without an internal request, with at least k micro-ops left and no reset in the next k steps, k steps (k at least 1) answer the state in which those k micro-ops have been executed in list order, upc is k further and k input entries are consumed. The premise that the program is shorter than 512 rules out a wrap of upc and holds of every program of the CORE. -/
def Obligations.StepsExecuteTheProgramInOrder : Prop :=
  ∀ (s : State) (k : Nat), s.request = none → s.drv_state ≠ .idle → s.prog.length < 512 → 1 ≤ k →
    s.upc.toNat + k ≤ s.prog.length → NoReset k s →
    runSteps k s = .next { runOps ((s.prog.drop s.upc.toNat).take k) s with
      upc := s.upc + BitVec.ofNat 9 k, inputs := s.inputs.drop k, rsp_valid := 0 }

/-- From every state whose elements hold their reset values, whatever its latches, with no internal request and no reset in the next 128 steps, commands offered or not: after 128 steps (127 micro-ops and the completion step) the driver is IDLE, both lines are 1, status is OK, rsp_valid is 0, ack holds the second sample, and the trace gained exactly INIT_PROG; no command was accepted. -/
def Obligations.InitializationRunsToIdle : Prop :=
  ∀ s : State, AtReset s → s.request = none → NoReset 128 s →
    runSteps 128 s = .next { s with
      drv_state := .idle, upc := 127, ack := Config.sdaIn (s.draws + 1), draws := s.draws + 2,
      inputs := s.inputs.drop 128, trace := s.trace ++ eventsOf initProg s.draws }

/-- From every state that meets the invariant, in IDLE, with SET_BRIGHTNESS offered at a level of at most 8 and no reset in the next 65 steps: after 65 steps (accept, 63 micro-ops, completion) the driver is IDLE with the lines at 1, status is OK with the response pulse, ack holds the one sample, buf and cursor are untouched, and the trace gained the acceptance, SEND_BYTE of 0x80 (level <= 0) or 0x88 | (level - 1) with START and STOP, and the response. -/
def Obligations.SetBrightnessRunsToCompletion : Prop :=
  ∀ (s : State) (level : BitVec 8) (text : List Byte) (b : Byte), Inv s → s.drv_state = .idle →
    Offers s 0 level text → NoReset 65 s → level.toInt ≤ 8 →
    b = (if level.toInt ≤ 0 then 0x80 else 0x88 ||| BitVec.ofInt 8 (level.toInt - 1)) →
    runSteps 65 s = .next { s with
      status := .ok, rsp_valid := 1, ack := Config.sdaIn s.draws, draws := s.draws + 1,
      op_l := 0, level_l := level, text_l := text, prog := sendByteOps b 1 1, upc := 63,
      inputs := s.inputs.drop 65,
      trace := s.trace ++ [.acceptBrightness level] ++ eventsOf (sendByteOps b 1 1) s.draws ++
        [.response .ok] }

/-- From every state that meets the invariant, in IDLE, with SET_TEXT of a text that assembles offered and no reset in the next 285 steps: after 285 steps (accept, 283 micro-ops, completion) the driver is IDLE with the lines at 1, status is OK with the response pulse, ack holds the fifth sample, buf and cursor are those of the assembly, and the trace gained the acceptance, the text frame of 0xC0 and the four digits, and the response. -/
def Obligations.SetTextRunsToCompletion : Prop :=
  ∀ (s : State) (level : BitVec 8) (text : List Byte) (a : Assembly), Inv s → s.drv_state = .idle →
    Offers s 1 level text → NoReset 285 s → a = assembleText s.rom text → a.code = .ok →
    runSteps 285 s = .next { s with
      status := .ok, rsp_valid := 1, ack := Config.sdaIn (s.draws + 4), draws := s.draws + 5,
      op_l := 1, level_l := level, text_l := text, buf := a.buf, cursor := a.cursor,
      prog := textFrameOps a.buf.d0 a.buf.d1 a.buf.d2 a.buf.d3, upc := 283, inputs := s.inputs.drop 285,
      trace := s.trace ++ [.acceptText text] ++
        eventsOf (textFrameOps a.buf.d0 a.buf.d1 a.buf.d2 a.buf.d3) s.draws ++ [.response .ok] }

/-- For every index the micro-op that the counters byte_ix, phase, bit_ix and sub give is the micro-op of the normative list, for INIT_PROG, for BRIGHT_PROG of every byte and for TEXT_PROG of every four digits; past the end they give none. -/
def Obligations.CountersProduceThePrograms : Prop :=
  (∀ n, initShape.opAt n = initProg[n]?) ∧
    (∀ (b : Byte) (n : Nat), (brightShape b).opAt n = (brightProg b)[n]?) ∧
    ∀ (d0 d1 d2 d3 : Byte) (n : Nat),
      (textShape d0 d1 d2 d3).opAt n = (textProg d0 d1 d2 d3)[n]?

/-- INIT_PROG is the SEND_BYTEs of the frames [0x8F] and [0x40] and the settle wait; BRIGHT_PROG(b) those of the frame [b]; TEXT_PROG those of the frame [0xC0, d0, d1, d2, d3]. In every state that meets the invariant the program is such a list of SEND_BYTEs, and its frames are [0x8F] and [0x40], or one frame [b] with b = 0x80 or 0x88 to 0x8F, or one frame [0xC0, d0, d1, d2, d3] with bit 7 of d3 = 0. -/
def Obligations.ProgramsSendTheFramesOfTheSpec : Prop :=
  initShape.ops = initProg ∧ framesOf initShape.bytes [] = [[0x8F], [0x40]] ∧
    (∀ b : Byte, (brightShape b).ops = brightProg b ∧ framesOf (brightShape b).bytes [] = [[b]]) ∧
    (∀ d0 d1 d2 d3 : Byte, (textShape d0 d1 d2 d3).ops = textProg d0 d1 d2 d3 ∧
      framesOf (textShape d0 d1 d2 d3).bytes [] = [[0xC0, d0, d1, d2, d3]]) ∧
    ∀ s : State, Inv s → ∃ sh : ProgramShape, s.prog = sh.ops ∧
      (framesOf sh.bytes [] = [[0x8F], [0x40]] ∨
        (∃ b, (b = 0x80 ∨ (0x88 ≤ b.toNat ∧ b.toNat ≤ 0x8F)) ∧ framesOf sh.bytes [] = [[b]]) ∨
        ∃ d0 d1 d2 d3 : Byte, d3.msb = false ∧ framesOf sh.bytes [] = [[0xC0, d0, d1, d2, d3]])

/-- For every device the contract allows: after [0x40] it is in auto-increment mode, and after a text frame in that mode whose fourth digit has bit 7 = 0 its digits are the four data bytes and it is on or off as before, so the segments lit at each position are those whose bits are 1 in its data byte if it was on and none if it was off, and the all-zero frame leaves it fully blanked. If the device is assumed to see the end of a frame without a stop edge: after [0x8F], [0x40] it is on and in auto-increment mode, after a text frame more it shows the four bytes and lights exactly the segments of their bits, after [0x80] it is off and fully blanked with its digits retained, and after the brightness byte of a level it is on at that level, for 0x8F only if that is assumed too. The bits 0 to 7 of a pattern are the segments a to g and the decimal point. The relation and its two named assumptions, and what it keeps beyond the rules, are the model's (log 19). -/
def Obligations.DeviceShowsTheTextOfTheFrame : Prop :=
  (∀ pattern : Byte, [.a, .b, .c, .d, .e, .f, .g, .decimalPoint].map (lights pattern) =
    (List.range 8).map pattern.getLsbD) ∧
  ∀ (a : Assumed) (x y : Device) (d0 d1 d2 d3 : Byte),
    (a.endSeen = true → deviceAfter a [[0x8F], [0x40]] x y → y.displayOn = true ∧ y.autoInc = true) ∧
    (deviceAfter a [[0x40]] x y → y.autoInc = true) ∧
    (x.autoInc = true → d3.msb = false → deviceAfter a [[0xC0, d0, d1, d2, d3]] x y →
      y.digits = ⟨d0, d1, d2, d3⟩ ∧ y.displayOn = x.displayOn ∧
      ∀ (k : Nat) (d : Byte) (seg : DigitSegment), [d0, d1, d2, d3][k]? = some d →
        (y.lit k seg = true ↔ x.displayOn = true ∧ d.getLsbD seg.bit = true)) ∧
    (x.autoInc = true → deviceAfter a [[0xC0, 0, 0, 0, 0]] x y → y.blanked = true) ∧
    (a.endSeen = true → d3.msb = false →
      deviceAfter a [[0x8F], [0x40], [0xC0, d0, d1, d2, d3]] x y →
        y.digits = ⟨d0, d1, d2, d3⟩ ∧ y.displayOn = true ∧ y.autoInc = true ∧
        ∀ (k : Nat) (d : Byte) (seg : DigitSegment), [d0, d1, d2, d3][k]? = some d →
          (y.lit k seg = true ↔ d.getLsbD seg.bit = true)) ∧
    (a.endSeen = true → deviceAfter a [[0x80]] x y →
      y.displayOn = false ∧ y.digits = x.digits ∧ y.blanked = true) ∧
    (a.endSeen = true → ∀ b : BitVec 3, (b ≠ 7 ∨ a.unblankIsLevel8 = true) →
      deviceAfter a [[brightByte b]] x y → y.displayOn = true ∧ y.brightness = b)

/-- For every instruction with an encoding, at every value of its operands, decoding its word gives the instruction itself, or, where two rows share the word, the row the decoder answers (UNBLANK for BRIGHTNESS_BYTE with b = 7, a key's FONT row for ENCODE of that key, log 13), which has the same word; and two instructions with the same word are the same row in this sense. -/
def Obligations.DecodeOfEncodeIsTheInstruction : Prop :=
  (∀ (i : Instr) (e : Encoded), encode i = some e →
      decode e = .ok (canonical i) ∧ encode (canonical i) = some e) ∧
    ∀ (i j : Instr) (e : Encoded), encode i = some e → encode j = some e → canonical i = canonical j

/-- For every instruction and every state, the row the decoder answers for its word has the same effect as the instruction: UNBLANK is BRIGHTNESS_BYTE at level 8, and each font row is ENCODE of its key. ENCODE keeps its own row exactly for the codes that are no keys. Which of two rows the decoder answers is the model's choice (log 13). -/
def Obligations.RowsThatShareAWordMeanTheSame : Prop :=
  (∀ (i : Instr) (s : State), exec (canonical i) s = exec i s) ∧
    encode (.brightnessByte 7) = encode .unblank ∧
    ∀ c : Byte, canonical (.encode c) = .encode c ↔ c ∉ fontKeys

/-- For every byte, format W decodes it exactly if it is 0x40, 0x80, 0xC0 or between 0x88 and 0x8F; it is rejected by name otherwise. In data position every byte is data. -/
def Obligations.CommandBytesAreExactlyTheMap : Prop :=
  ∀ b : Byte,
    ((∃ i, decode (.w b) = .ok i) ↔
      b = 0x40 ∨ b = 0x80 ∨ b = 0xC0 ∨ (0x88 ≤ b.toNat ∧ b.toNat ≤ 0x8F)) ∧
    ((¬ ∃ i, decode (.w b) = .ok i) → decode (.w b) = .error (.notACommandByte b)) ∧
    decode (.wd false b) = .ok (.data b) ∧ decode (.wd true b) = .ok (.dataLast b)

/-- UNINIT, IDLE, TRANSMITTING are 00, 01, 10 and 11 is never shown; OK and the three errors are 00, 01, 10, 11; setText's answer is true exactly for OK; cmd_ready is 1 exactly in IDLE and busy is its complement. -/
def Obligations.StateAndResultCodes : Prop :=
  (DrvState.uninit.code = 0b00 ∧ DrvState.idle.code = 0b01 ∧ DrvState.transmitting.code = 0b10) ∧
    (∀ s : State, stateO s ≠ 0b11 ∧ busy s = ~~~ (cmdReady s) ∧
      (cmdReady s = 1 ↔ s.drv_state = .idle)) ∧
    (ResultCode.ok.code = 0b00 ∧ ResultCode.unsupportedCharacter.code = 0b01 ∧
      ResultCode.invalidDecimalPointPlacement.code = 0b10 ∧
      ResultCode.invalidBrightnessLevel.code = 0b11) ∧
    ∀ r : ResultCode, r.isTrue = true ↔ r = .ok

/-- From every state, what an operation of the opcode table or a step answers has the ROM it began with, in every driver state, with reset and with an internal request too. That the ROM stands in State, so that it is a parameter of every statement, is the model's choice (log 9). -/
def Obligations.NoStepWritesTheFontRom : Prop :=
  (∀ (i : Instr) (s t : State), exec i s = .next t → t.rom = s.rom) ∧
    ∀ s t : State, step s = .next t → t.rom = s.rom

/-- If the micro-ops of the trace, executed from both outputs at 1, lead to the line outputs of the state, then they do so in every state a step answers, with reset and with an internal request too; and they do so at State.reset. The trace is a field of the model (log 6). -/
def Obligations.EveryStepKeepsTheTraceAtTheOutputs : Prop :=
  endLevels (microOps State.reset.trace) (1, 1) = lines State.reset ∧
    ∀ s t : State, endLevels (microOps s.trace) (1, 1) = lines s → step s = .next t →
      endLevels (microOps t.trace) (1, 1) = lines t

/-- The waveform of the empty trace is the one segment (1, 1) of 0 us, and with each further event a waveform grows so: a write that changes the outputs adds a segment of 0 us that shows the new pair; a WAIT adds its label to the last segment; a write of the level that stands, a SAMPLE, an accepted command and a response change nothing. For every trace the last segment shows the outputs its micro-ops lead to from (1, 1), two neighbouring segments never show the same pair, the durations sum to all the labels executed, and the events of the host have no part in the waveform. -/
def Obligations.WaveformOfATrace : Prop :=
  traceWaveform [] = [⟨1, 1, 0⟩] ∧
    ∀ trace : List Event, ∃ (before : List Segment) (c d : Level) (us : Nat),
      traceWaveform trace = before ++ [⟨c, d, us⟩] ∧ (c, d) = endLevels (microOps trace) (1, 1) ∧
      (∀ e : Event, traceWaveform (trace ++ [e]) = match e with
        | .scl v => if v = c then traceWaveform trace else traceWaveform trace ++ [⟨v, d, 0⟩]
        | .sda v => if v = d then traceWaveform trace else traceWaveform trace ++ [⟨c, v, 0⟩]
        | .wait n => before ++ [⟨c, d, us + n⟩]
        | .sample _ => traceWaveform trace
        | .acceptBrightness _ => traceWaveform trace
        | .acceptText _ => traceWaveform trace
        | .response _ => traceWaveform trace) ∧
      (traceWaveform trace).IsChain (fun g h => (g.scl, g.sda) ≠ (h.scl, h.sda)) ∧
      ((traceWaveform trace).map Segment.us).sum = nominalUs (microOps trace) ∧
      traceWaveform (trace.filter fun e => e.microOp.isSome) = traceWaveform trace

/-- For every ROM the parameter admits, D and d are two keys with one pattern, and a text assembles as it does with each D in it written d; so in every state that meets the invariant the rows of D and d, ENCODE of either, and ASSEMBLE and SET_TEXT of the two texts answer alike, but for the text latch and the trace, in which SET_TEXT leaves the text itself. The equality is the spec's decision D15; the two codes are ASCII (log 10). -/
def Obligations.UpperAndLowerDHaveOnePattern : Prop :=
  (∀ rom : List Host.Cell, fontRomWf rom = true →
      (romRead rom 0x44).isSome = true ∧ romRead rom 0x64 = romRead rom 0x44 ∧
        ∀ text : List Byte, assembleText rom (text.map lowerD) = assembleText rom text) ∧
    ∀ s : State, Inv s →
      exec .font_d s = exec .font_D s ∧ exec (.encode 0x64) s = exec (.encode 0x44) s ∧
        ∀ text : List Byte,
          exec (.assemble (text.map lowerD)) s = exec (.assemble text) s ∧
          ∃ t t', exec (.setText (text.map lowerD)) s = .next t ∧ exec (.setText text) s = .next t' ∧
            { t with text_l := t'.text_l, trace := t'.trace } = t'
end

