-- ==== Sys2Proof/Laws/State.lean ====
section
/-! SUPPORT. One lemma per field per update of State, each true by `rfl`. -/

namespace Sys2Proof.Machine

/-! ### doMicro_sda -/

@[simp] theorem doMicro_sda_scl_o (v : Level) (s : State) : (doMicro (.sda v) s).scl_o = s.scl_o := rfl
@[simp] theorem doMicro_sda_sda_o (v : Level) (s : State) : (doMicro (.sda v) s).sda_o = v := rfl
@[simp] theorem doMicro_sda_drv_state (v : Level) (s : State) : (doMicro (.sda v) s).drv_state = s.drv_state := rfl
@[simp] theorem doMicro_sda_status (v : Level) (s : State) : (doMicro (.sda v) s).status = s.status := rfl
@[simp] theorem doMicro_sda_ack (v : Level) (s : State) : (doMicro (.sda v) s).ack = s.ack := rfl
@[simp] theorem doMicro_sda_buf (v : Level) (s : State) : (doMicro (.sda v) s).buf = s.buf := rfl
@[simp] theorem doMicro_sda_cursor (v : Level) (s : State) : (doMicro (.sda v) s).cursor = s.cursor := rfl
@[simp] theorem doMicro_sda_prog (v : Level) (s : State) : (doMicro (.sda v) s).prog = s.prog := rfl
@[simp] theorem doMicro_sda_upc (v : Level) (s : State) : (doMicro (.sda v) s).upc = s.upc := rfl
@[simp] theorem doMicro_sda_wcnt (v : Level) (s : State) : (doMicro (.sda v) s).wcnt = s.wcnt := rfl
@[simp] theorem doMicro_sda_op_l (v : Level) (s : State) : (doMicro (.sda v) s).op_l = s.op_l := rfl
@[simp] theorem doMicro_sda_level_l (v : Level) (s : State) : (doMicro (.sda v) s).level_l = s.level_l := rfl
@[simp] theorem doMicro_sda_text_l (v : Level) (s : State) : (doMicro (.sda v) s).text_l = s.text_l := rfl
@[simp] theorem doMicro_sda_rsp_valid (v : Level) (s : State) : (doMicro (.sda v) s).rsp_valid = s.rsp_valid := rfl
@[simp] theorem doMicro_sda_draws (v : Level) (s : State) : (doMicro (.sda v) s).draws = s.draws := rfl
@[simp] theorem doMicro_sda_inputs (v : Level) (s : State) : (doMicro (.sda v) s).inputs = s.inputs := rfl
@[simp] theorem doMicro_sda_request (v : Level) (s : State) : (doMicro (.sda v) s).request = s.request := rfl
@[simp] theorem doMicro_sda_trace (v : Level) (s : State) : (doMicro (.sda v) s).trace = s.trace ++ [.sda v] := rfl
@[simp] theorem doMicro_sda_pat (v : Level) (s : State) : (doMicro (.sda v) s).pat = s.pat := rfl
@[simp] theorem doMicro_sda_rom (v : Level) (s : State) : (doMicro (.sda v) s).rom = s.rom := rfl

/-! ### doMicro_scl -/

@[simp] theorem doMicro_scl_scl_o (v : Level) (s : State) : (doMicro (.scl v) s).scl_o = v := rfl
@[simp] theorem doMicro_scl_sda_o (v : Level) (s : State) : (doMicro (.scl v) s).sda_o = s.sda_o := rfl
@[simp] theorem doMicro_scl_drv_state (v : Level) (s : State) : (doMicro (.scl v) s).drv_state = s.drv_state := rfl
@[simp] theorem doMicro_scl_status (v : Level) (s : State) : (doMicro (.scl v) s).status = s.status := rfl
@[simp] theorem doMicro_scl_ack (v : Level) (s : State) : (doMicro (.scl v) s).ack = s.ack := rfl
@[simp] theorem doMicro_scl_buf (v : Level) (s : State) : (doMicro (.scl v) s).buf = s.buf := rfl
@[simp] theorem doMicro_scl_cursor (v : Level) (s : State) : (doMicro (.scl v) s).cursor = s.cursor := rfl
@[simp] theorem doMicro_scl_prog (v : Level) (s : State) : (doMicro (.scl v) s).prog = s.prog := rfl
@[simp] theorem doMicro_scl_upc (v : Level) (s : State) : (doMicro (.scl v) s).upc = s.upc := rfl
@[simp] theorem doMicro_scl_wcnt (v : Level) (s : State) : (doMicro (.scl v) s).wcnt = s.wcnt := rfl
@[simp] theorem doMicro_scl_op_l (v : Level) (s : State) : (doMicro (.scl v) s).op_l = s.op_l := rfl
@[simp] theorem doMicro_scl_level_l (v : Level) (s : State) : (doMicro (.scl v) s).level_l = s.level_l := rfl
@[simp] theorem doMicro_scl_text_l (v : Level) (s : State) : (doMicro (.scl v) s).text_l = s.text_l := rfl
@[simp] theorem doMicro_scl_rsp_valid (v : Level) (s : State) : (doMicro (.scl v) s).rsp_valid = s.rsp_valid := rfl
@[simp] theorem doMicro_scl_draws (v : Level) (s : State) : (doMicro (.scl v) s).draws = s.draws := rfl
@[simp] theorem doMicro_scl_inputs (v : Level) (s : State) : (doMicro (.scl v) s).inputs = s.inputs := rfl
@[simp] theorem doMicro_scl_request (v : Level) (s : State) : (doMicro (.scl v) s).request = s.request := rfl
@[simp] theorem doMicro_scl_trace (v : Level) (s : State) : (doMicro (.scl v) s).trace = s.trace ++ [.scl v] := rfl
@[simp] theorem doMicro_scl_pat (v : Level) (s : State) : (doMicro (.scl v) s).pat = s.pat := rfl
@[simp] theorem doMicro_scl_rom (v : Level) (s : State) : (doMicro (.scl v) s).rom = s.rom := rfl

/-! ### doMicro_wait -/

@[simp] theorem doMicro_wait_scl_o (n : Nat) (s : State) : (doMicro (.wait n) s).scl_o = s.scl_o := rfl
@[simp] theorem doMicro_wait_sda_o (n : Nat) (s : State) : (doMicro (.wait n) s).sda_o = s.sda_o := rfl
@[simp] theorem doMicro_wait_drv_state (n : Nat) (s : State) : (doMicro (.wait n) s).drv_state = s.drv_state := rfl
@[simp] theorem doMicro_wait_status (n : Nat) (s : State) : (doMicro (.wait n) s).status = s.status := rfl
@[simp] theorem doMicro_wait_ack (n : Nat) (s : State) : (doMicro (.wait n) s).ack = s.ack := rfl
@[simp] theorem doMicro_wait_buf (n : Nat) (s : State) : (doMicro (.wait n) s).buf = s.buf := rfl
@[simp] theorem doMicro_wait_cursor (n : Nat) (s : State) : (doMicro (.wait n) s).cursor = s.cursor := rfl
@[simp] theorem doMicro_wait_prog (n : Nat) (s : State) : (doMicro (.wait n) s).prog = s.prog := rfl
@[simp] theorem doMicro_wait_upc (n : Nat) (s : State) : (doMicro (.wait n) s).upc = s.upc := rfl
@[simp] theorem doMicro_wait_wcnt (n : Nat) (s : State) : (doMicro (.wait n) s).wcnt = s.wcnt := rfl
@[simp] theorem doMicro_wait_op_l (n : Nat) (s : State) : (doMicro (.wait n) s).op_l = s.op_l := rfl
@[simp] theorem doMicro_wait_level_l (n : Nat) (s : State) : (doMicro (.wait n) s).level_l = s.level_l := rfl
@[simp] theorem doMicro_wait_text_l (n : Nat) (s : State) : (doMicro (.wait n) s).text_l = s.text_l := rfl
@[simp] theorem doMicro_wait_rsp_valid (n : Nat) (s : State) : (doMicro (.wait n) s).rsp_valid = s.rsp_valid := rfl
@[simp] theorem doMicro_wait_draws (n : Nat) (s : State) : (doMicro (.wait n) s).draws = s.draws := rfl
@[simp] theorem doMicro_wait_inputs (n : Nat) (s : State) : (doMicro (.wait n) s).inputs = s.inputs := rfl
@[simp] theorem doMicro_wait_request (n : Nat) (s : State) : (doMicro (.wait n) s).request = s.request := rfl
@[simp] theorem doMicro_wait_trace (n : Nat) (s : State) : (doMicro (.wait n) s).trace = s.trace ++ [.wait n] := rfl
@[simp] theorem doMicro_wait_pat (n : Nat) (s : State) : (doMicro (.wait n) s).pat = s.pat := rfl
@[simp] theorem doMicro_wait_rom (n : Nat) (s : State) : (doMicro (.wait n) s).rom = s.rom := rfl

/-! ### doMicro_sample -/

@[simp] theorem doMicro_sample_scl_o (s : State) : (doMicro .sample s).scl_o = s.scl_o := rfl
@[simp] theorem doMicro_sample_sda_o (s : State) : (doMicro .sample s).sda_o = s.sda_o := rfl
@[simp] theorem doMicro_sample_drv_state (s : State) : (doMicro .sample s).drv_state = s.drv_state := rfl
@[simp] theorem doMicro_sample_status (s : State) : (doMicro .sample s).status = s.status := rfl
@[simp] theorem doMicro_sample_ack (s : State) : (doMicro .sample s).ack = Config.sdaIn s.draws := rfl
@[simp] theorem doMicro_sample_buf (s : State) : (doMicro .sample s).buf = s.buf := rfl
@[simp] theorem doMicro_sample_cursor (s : State) : (doMicro .sample s).cursor = s.cursor := rfl
@[simp] theorem doMicro_sample_prog (s : State) : (doMicro .sample s).prog = s.prog := rfl
@[simp] theorem doMicro_sample_upc (s : State) : (doMicro .sample s).upc = s.upc := rfl
@[simp] theorem doMicro_sample_wcnt (s : State) : (doMicro .sample s).wcnt = s.wcnt := rfl
@[simp] theorem doMicro_sample_op_l (s : State) : (doMicro .sample s).op_l = s.op_l := rfl
@[simp] theorem doMicro_sample_level_l (s : State) : (doMicro .sample s).level_l = s.level_l := rfl
@[simp] theorem doMicro_sample_text_l (s : State) : (doMicro .sample s).text_l = s.text_l := rfl
@[simp] theorem doMicro_sample_rsp_valid (s : State) : (doMicro .sample s).rsp_valid = s.rsp_valid := rfl
@[simp] theorem doMicro_sample_draws (s : State) : (doMicro .sample s).draws = s.draws + 1 := rfl
@[simp] theorem doMicro_sample_inputs (s : State) : (doMicro .sample s).inputs = s.inputs := rfl
@[simp] theorem doMicro_sample_request (s : State) : (doMicro .sample s).request = s.request := rfl
@[simp] theorem doMicro_sample_trace (s : State) : (doMicro .sample s).trace = s.trace ++ [.sample (Config.sdaIn s.draws)] := rfl
@[simp] theorem doMicro_sample_pat (s : State) : (doMicro .sample s).pat = s.pat := rfl
@[simp] theorem doMicro_sample_rom (s : State) : (doMicro .sample s).rom = s.rom := rfl

/-! ### advance -/

@[simp] theorem advance_scl_o (s : State) : (advance s).scl_o = s.scl_o := rfl
@[simp] theorem advance_sda_o (s : State) : (advance s).sda_o = s.sda_o := rfl
@[simp] theorem advance_drv_state (s : State) : (advance s).drv_state = s.drv_state := rfl
@[simp] theorem advance_status (s : State) : (advance s).status = s.status := rfl
@[simp] theorem advance_ack (s : State) : (advance s).ack = s.ack := rfl
@[simp] theorem advance_buf (s : State) : (advance s).buf = s.buf := rfl
@[simp] theorem advance_cursor (s : State) : (advance s).cursor = s.cursor := rfl
@[simp] theorem advance_prog (s : State) : (advance s).prog = s.prog := rfl
@[simp] theorem advance_upc (s : State) : (advance s).upc = s.upc + 1 := rfl
@[simp] theorem advance_wcnt (s : State) : (advance s).wcnt = s.wcnt := rfl
@[simp] theorem advance_op_l (s : State) : (advance s).op_l = s.op_l := rfl
@[simp] theorem advance_level_l (s : State) : (advance s).level_l = s.level_l := rfl
@[simp] theorem advance_text_l (s : State) : (advance s).text_l = s.text_l := rfl
@[simp] theorem advance_rsp_valid (s : State) : (advance s).rsp_valid = s.rsp_valid := rfl
@[simp] theorem advance_draws (s : State) : (advance s).draws = s.draws := rfl
@[simp] theorem advance_inputs (s : State) : (advance s).inputs = s.inputs := rfl
@[simp] theorem advance_request (s : State) : (advance s).request = s.request := rfl
@[simp] theorem advance_trace (s : State) : (advance s).trace = s.trace := rfl
@[simp] theorem advance_pat (s : State) : (advance s).pat = s.pat := rfl
@[simp] theorem advance_rom (s : State) : (advance s).rom = s.rom := rfl

/-! ### beginStep -/

@[simp] theorem beginStep_scl_o (s : State) : (beginStep s).scl_o = s.scl_o := rfl
@[simp] theorem beginStep_sda_o (s : State) : (beginStep s).sda_o = s.sda_o := rfl
@[simp] theorem beginStep_drv_state (s : State) : (beginStep s).drv_state = s.drv_state := rfl
@[simp] theorem beginStep_status (s : State) : (beginStep s).status = s.status := rfl
@[simp] theorem beginStep_ack (s : State) : (beginStep s).ack = s.ack := rfl
@[simp] theorem beginStep_buf (s : State) : (beginStep s).buf = s.buf := rfl
@[simp] theorem beginStep_cursor (s : State) : (beginStep s).cursor = s.cursor := rfl
@[simp] theorem beginStep_prog (s : State) : (beginStep s).prog = s.prog := rfl
@[simp] theorem beginStep_upc (s : State) : (beginStep s).upc = s.upc := rfl
@[simp] theorem beginStep_wcnt (s : State) : (beginStep s).wcnt = s.wcnt := rfl
@[simp] theorem beginStep_op_l (s : State) : (beginStep s).op_l = s.op_l := rfl
@[simp] theorem beginStep_level_l (s : State) : (beginStep s).level_l = s.level_l := rfl
@[simp] theorem beginStep_text_l (s : State) : (beginStep s).text_l = s.text_l := rfl
@[simp] theorem beginStep_rsp_valid (s : State) : (beginStep s).rsp_valid = 0 := rfl
@[simp] theorem beginStep_draws (s : State) : (beginStep s).draws = s.draws := rfl
@[simp] theorem beginStep_inputs (s : State) : (beginStep s).inputs = s.inputs.tail := rfl
@[simp] theorem beginStep_request (s : State) : (beginStep s).request = s.request := rfl
@[simp] theorem beginStep_trace (s : State) : (beginStep s).trace = s.trace := rfl
@[simp] theorem beginStep_pat (s : State) : (beginStep s).pat = s.pat := rfl
@[simp] theorem beginStep_rom (s : State) : (beginStep s).rom = s.rom := rfl

/-! ### beginProgram -/

@[simp] theorem beginProgram_scl_o (p : List MicroOp) (s : State) : (beginProgram p s).scl_o = s.scl_o := rfl
@[simp] theorem beginProgram_sda_o (p : List MicroOp) (s : State) : (beginProgram p s).sda_o = s.sda_o := rfl
@[simp] theorem beginProgram_drv_state (p : List MicroOp) (s : State) : (beginProgram p s).drv_state = .transmitting := rfl
@[simp] theorem beginProgram_status (p : List MicroOp) (s : State) : (beginProgram p s).status = s.status := rfl
@[simp] theorem beginProgram_ack (p : List MicroOp) (s : State) : (beginProgram p s).ack = s.ack := rfl
@[simp] theorem beginProgram_buf (p : List MicroOp) (s : State) : (beginProgram p s).buf = s.buf := rfl
@[simp] theorem beginProgram_cursor (p : List MicroOp) (s : State) : (beginProgram p s).cursor = s.cursor := rfl
@[simp] theorem beginProgram_prog (p : List MicroOp) (s : State) : (beginProgram p s).prog = p := rfl
@[simp] theorem beginProgram_upc (p : List MicroOp) (s : State) : (beginProgram p s).upc = 0 := rfl
@[simp] theorem beginProgram_wcnt (p : List MicroOp) (s : State) : (beginProgram p s).wcnt = s.wcnt := rfl
@[simp] theorem beginProgram_op_l (p : List MicroOp) (s : State) : (beginProgram p s).op_l = s.op_l := rfl
@[simp] theorem beginProgram_level_l (p : List MicroOp) (s : State) : (beginProgram p s).level_l = s.level_l := rfl
@[simp] theorem beginProgram_text_l (p : List MicroOp) (s : State) : (beginProgram p s).text_l = s.text_l := rfl
@[simp] theorem beginProgram_rsp_valid (p : List MicroOp) (s : State) : (beginProgram p s).rsp_valid = s.rsp_valid := rfl
@[simp] theorem beginProgram_draws (p : List MicroOp) (s : State) : (beginProgram p s).draws = s.draws := rfl
@[simp] theorem beginProgram_inputs (p : List MicroOp) (s : State) : (beginProgram p s).inputs = s.inputs := rfl
@[simp] theorem beginProgram_request (p : List MicroOp) (s : State) : (beginProgram p s).request = s.request := rfl
@[simp] theorem beginProgram_trace (p : List MicroOp) (s : State) : (beginProgram p s).trace = s.trace := rfl
@[simp] theorem beginProgram_pat (p : List MicroOp) (s : State) : (beginProgram p s).pat = s.pat := rfl
@[simp] theorem beginProgram_rom (p : List MicroOp) (s : State) : (beginProgram p s).rom = s.rom := rfl

/-! ### completeCommand -/

@[simp] theorem completeCommand_scl_o (s : State) : (completeCommand s).scl_o = s.scl_o := rfl
@[simp] theorem completeCommand_sda_o (s : State) : (completeCommand s).sda_o = s.sda_o := rfl
@[simp] theorem completeCommand_drv_state (s : State) : (completeCommand s).drv_state = .idle := rfl
@[simp] theorem completeCommand_status (s : State) : (completeCommand s).status = .ok := rfl
@[simp] theorem completeCommand_ack (s : State) : (completeCommand s).ack = s.ack := rfl
@[simp] theorem completeCommand_buf (s : State) : (completeCommand s).buf = s.buf := rfl
@[simp] theorem completeCommand_cursor (s : State) : (completeCommand s).cursor = s.cursor := rfl
@[simp] theorem completeCommand_prog (s : State) : (completeCommand s).prog = s.prog := rfl
@[simp] theorem completeCommand_upc (s : State) : (completeCommand s).upc = s.upc := rfl
@[simp] theorem completeCommand_wcnt (s : State) : (completeCommand s).wcnt = s.wcnt := rfl
@[simp] theorem completeCommand_op_l (s : State) : (completeCommand s).op_l = s.op_l := rfl
@[simp] theorem completeCommand_level_l (s : State) : (completeCommand s).level_l = s.level_l := rfl
@[simp] theorem completeCommand_text_l (s : State) : (completeCommand s).text_l = s.text_l := rfl
@[simp] theorem completeCommand_rsp_valid (s : State) : (completeCommand s).rsp_valid = 1 := rfl
@[simp] theorem completeCommand_draws (s : State) : (completeCommand s).draws = s.draws := rfl
@[simp] theorem completeCommand_inputs (s : State) : (completeCommand s).inputs = s.inputs := rfl
@[simp] theorem completeCommand_request (s : State) : (completeCommand s).request = s.request := rfl
@[simp] theorem completeCommand_trace (s : State) : (completeCommand s).trace = s.trace ++ [.response .ok] := rfl
@[simp] theorem completeCommand_pat (s : State) : (completeCommand s).pat = s.pat := rfl
@[simp] theorem completeCommand_rom (s : State) : (completeCommand s).rom = s.rom := rfl

/-! ### completeInit -/

@[simp] theorem completeInit_scl_o (s : State) : (completeInit s).scl_o = s.scl_o := rfl
@[simp] theorem completeInit_sda_o (s : State) : (completeInit s).sda_o = s.sda_o := rfl
@[simp] theorem completeInit_drv_state (s : State) : (completeInit s).drv_state = .idle := rfl
@[simp] theorem completeInit_status (s : State) : (completeInit s).status = s.status := rfl
@[simp] theorem completeInit_ack (s : State) : (completeInit s).ack = s.ack := rfl
@[simp] theorem completeInit_buf (s : State) : (completeInit s).buf = s.buf := rfl
@[simp] theorem completeInit_cursor (s : State) : (completeInit s).cursor = s.cursor := rfl
@[simp] theorem completeInit_prog (s : State) : (completeInit s).prog = s.prog := rfl
@[simp] theorem completeInit_upc (s : State) : (completeInit s).upc = s.upc := rfl
@[simp] theorem completeInit_wcnt (s : State) : (completeInit s).wcnt = s.wcnt := rfl
@[simp] theorem completeInit_op_l (s : State) : (completeInit s).op_l = s.op_l := rfl
@[simp] theorem completeInit_level_l (s : State) : (completeInit s).level_l = s.level_l := rfl
@[simp] theorem completeInit_text_l (s : State) : (completeInit s).text_l = s.text_l := rfl
@[simp] theorem completeInit_rsp_valid (s : State) : (completeInit s).rsp_valid = s.rsp_valid := rfl
@[simp] theorem completeInit_draws (s : State) : (completeInit s).draws = s.draws := rfl
@[simp] theorem completeInit_inputs (s : State) : (completeInit s).inputs = s.inputs := rfl
@[simp] theorem completeInit_request (s : State) : (completeInit s).request = s.request := rfl
@[simp] theorem completeInit_trace (s : State) : (completeInit s).trace = s.trace := rfl
@[simp] theorem completeInit_pat (s : State) : (completeInit s).pat = s.pat := rfl
@[simp] theorem completeInit_rom (s : State) : (completeInit s).rom = s.rom := rfl

/-! ### raiseError -/

@[simp] theorem raiseError_scl_o (e : ResultCode) (s : State) : (raiseError e s).scl_o = s.scl_o := rfl
@[simp] theorem raiseError_sda_o (e : ResultCode) (s : State) : (raiseError e s).sda_o = s.sda_o := rfl
@[simp] theorem raiseError_drv_state (e : ResultCode) (s : State) : (raiseError e s).drv_state = s.drv_state := rfl
@[simp] theorem raiseError_status (e : ResultCode) (s : State) : (raiseError e s).status = e := rfl
@[simp] theorem raiseError_ack (e : ResultCode) (s : State) : (raiseError e s).ack = s.ack := rfl
@[simp] theorem raiseError_buf (e : ResultCode) (s : State) : (raiseError e s).buf = s.buf := rfl
@[simp] theorem raiseError_cursor (e : ResultCode) (s : State) : (raiseError e s).cursor = s.cursor := rfl
@[simp] theorem raiseError_prog (e : ResultCode) (s : State) : (raiseError e s).prog = s.prog := rfl
@[simp] theorem raiseError_upc (e : ResultCode) (s : State) : (raiseError e s).upc = s.upc := rfl
@[simp] theorem raiseError_wcnt (e : ResultCode) (s : State) : (raiseError e s).wcnt = s.wcnt := rfl
@[simp] theorem raiseError_op_l (e : ResultCode) (s : State) : (raiseError e s).op_l = s.op_l := rfl
@[simp] theorem raiseError_level_l (e : ResultCode) (s : State) : (raiseError e s).level_l = s.level_l := rfl
@[simp] theorem raiseError_text_l (e : ResultCode) (s : State) : (raiseError e s).text_l = s.text_l := rfl
@[simp] theorem raiseError_rsp_valid (e : ResultCode) (s : State) : (raiseError e s).rsp_valid = 1 := rfl
@[simp] theorem raiseError_draws (e : ResultCode) (s : State) : (raiseError e s).draws = s.draws := rfl
@[simp] theorem raiseError_inputs (e : ResultCode) (s : State) : (raiseError e s).inputs = s.inputs := rfl
@[simp] theorem raiseError_request (e : ResultCode) (s : State) : (raiseError e s).request = s.request := rfl
@[simp] theorem raiseError_trace (e : ResultCode) (s : State) : (raiseError e s).trace = s.trace ++ [.response e] := rfl
@[simp] theorem raiseError_pat (e : ResultCode) (s : State) : (raiseError e s).pat = s.pat := rfl
@[simp] theorem raiseError_rom (e : ResultCode) (s : State) : (raiseError e s).rom = s.rom := rfl

/-! ### latchPorts -/

@[simp] theorem latchPorts_scl_o (p : Inputs) (s : State) : (latchPorts p s).scl_o = s.scl_o := rfl
@[simp] theorem latchPorts_sda_o (p : Inputs) (s : State) : (latchPorts p s).sda_o = s.sda_o := rfl
@[simp] theorem latchPorts_drv_state (p : Inputs) (s : State) : (latchPorts p s).drv_state = s.drv_state := rfl
@[simp] theorem latchPorts_status (p : Inputs) (s : State) : (latchPorts p s).status = s.status := rfl
@[simp] theorem latchPorts_ack (p : Inputs) (s : State) : (latchPorts p s).ack = s.ack := rfl
@[simp] theorem latchPorts_buf (p : Inputs) (s : State) : (latchPorts p s).buf = s.buf := rfl
@[simp] theorem latchPorts_cursor (p : Inputs) (s : State) : (latchPorts p s).cursor = s.cursor := rfl
@[simp] theorem latchPorts_prog (p : Inputs) (s : State) : (latchPorts p s).prog = s.prog := rfl
@[simp] theorem latchPorts_upc (p : Inputs) (s : State) : (latchPorts p s).upc = s.upc := rfl
@[simp] theorem latchPorts_wcnt (p : Inputs) (s : State) : (latchPorts p s).wcnt = s.wcnt := rfl
@[simp] theorem latchPorts_op_l (p : Inputs) (s : State) : (latchPorts p s).op_l = p.cmd_op := rfl
@[simp] theorem latchPorts_level_l (p : Inputs) (s : State) : (latchPorts p s).level_l = p.cmd_level := rfl
@[simp] theorem latchPorts_text_l (p : Inputs) (s : State) : (latchPorts p s).text_l = p.cmd_text := rfl
@[simp] theorem latchPorts_rsp_valid (p : Inputs) (s : State) : (latchPorts p s).rsp_valid = s.rsp_valid := rfl
@[simp] theorem latchPorts_draws (p : Inputs) (s : State) : (latchPorts p s).draws = s.draws := rfl
@[simp] theorem latchPorts_inputs (p : Inputs) (s : State) : (latchPorts p s).inputs = s.inputs := rfl
@[simp] theorem latchPorts_request (p : Inputs) (s : State) : (latchPorts p s).request = s.request := rfl
@[simp] theorem latchPorts_trace (p : Inputs) (s : State) : (latchPorts p s).trace = s.trace := rfl
@[simp] theorem latchPorts_pat (p : Inputs) (s : State) : (latchPorts p s).pat = s.pat := rfl
@[simp] theorem latchPorts_rom (p : Inputs) (s : State) : (latchPorts p s).rom = s.rom := rfl

/-! ### latchBrightness -/

@[simp] theorem latchBrightness_scl_o (l : BitVec 8) (s : State) : (latchBrightness l s).scl_o = s.scl_o := rfl
@[simp] theorem latchBrightness_sda_o (l : BitVec 8) (s : State) : (latchBrightness l s).sda_o = s.sda_o := rfl
@[simp] theorem latchBrightness_drv_state (l : BitVec 8) (s : State) : (latchBrightness l s).drv_state = s.drv_state := rfl
@[simp] theorem latchBrightness_status (l : BitVec 8) (s : State) : (latchBrightness l s).status = s.status := rfl
@[simp] theorem latchBrightness_ack (l : BitVec 8) (s : State) : (latchBrightness l s).ack = s.ack := rfl
@[simp] theorem latchBrightness_buf (l : BitVec 8) (s : State) : (latchBrightness l s).buf = s.buf := rfl
@[simp] theorem latchBrightness_cursor (l : BitVec 8) (s : State) : (latchBrightness l s).cursor = s.cursor := rfl
@[simp] theorem latchBrightness_prog (l : BitVec 8) (s : State) : (latchBrightness l s).prog = s.prog := rfl
@[simp] theorem latchBrightness_upc (l : BitVec 8) (s : State) : (latchBrightness l s).upc = s.upc := rfl
@[simp] theorem latchBrightness_wcnt (l : BitVec 8) (s : State) : (latchBrightness l s).wcnt = s.wcnt := rfl
@[simp] theorem latchBrightness_op_l (l : BitVec 8) (s : State) : (latchBrightness l s).op_l = 0 := rfl
@[simp] theorem latchBrightness_level_l (l : BitVec 8) (s : State) : (latchBrightness l s).level_l = l := rfl
@[simp] theorem latchBrightness_text_l (l : BitVec 8) (s : State) : (latchBrightness l s).text_l = s.text_l := rfl
@[simp] theorem latchBrightness_rsp_valid (l : BitVec 8) (s : State) : (latchBrightness l s).rsp_valid = s.rsp_valid := rfl
@[simp] theorem latchBrightness_draws (l : BitVec 8) (s : State) : (latchBrightness l s).draws = s.draws := rfl
@[simp] theorem latchBrightness_inputs (l : BitVec 8) (s : State) : (latchBrightness l s).inputs = s.inputs := rfl
@[simp] theorem latchBrightness_request (l : BitVec 8) (s : State) : (latchBrightness l s).request = s.request := rfl
@[simp] theorem latchBrightness_trace (l : BitVec 8) (s : State) : (latchBrightness l s).trace = s.trace ++ [.acceptBrightness l] := rfl
@[simp] theorem latchBrightness_pat (l : BitVec 8) (s : State) : (latchBrightness l s).pat = s.pat := rfl
@[simp] theorem latchBrightness_rom (l : BitVec 8) (s : State) : (latchBrightness l s).rom = s.rom := rfl

/-! ### latchText -/

@[simp] theorem latchText_scl_o (t : List Byte) (s : State) : (latchText t s).scl_o = s.scl_o := rfl
@[simp] theorem latchText_sda_o (t : List Byte) (s : State) : (latchText t s).sda_o = s.sda_o := rfl
@[simp] theorem latchText_drv_state (t : List Byte) (s : State) : (latchText t s).drv_state = s.drv_state := rfl
@[simp] theorem latchText_status (t : List Byte) (s : State) : (latchText t s).status = s.status := rfl
@[simp] theorem latchText_ack (t : List Byte) (s : State) : (latchText t s).ack = s.ack := rfl
@[simp] theorem latchText_buf (t : List Byte) (s : State) : (latchText t s).buf = s.buf := rfl
@[simp] theorem latchText_cursor (t : List Byte) (s : State) : (latchText t s).cursor = s.cursor := rfl
@[simp] theorem latchText_prog (t : List Byte) (s : State) : (latchText t s).prog = s.prog := rfl
@[simp] theorem latchText_upc (t : List Byte) (s : State) : (latchText t s).upc = s.upc := rfl
@[simp] theorem latchText_wcnt (t : List Byte) (s : State) : (latchText t s).wcnt = s.wcnt := rfl
@[simp] theorem latchText_op_l (t : List Byte) (s : State) : (latchText t s).op_l = 1 := rfl
@[simp] theorem latchText_level_l (t : List Byte) (s : State) : (latchText t s).level_l = s.level_l := rfl
@[simp] theorem latchText_text_l (t : List Byte) (s : State) : (latchText t s).text_l = t := rfl
@[simp] theorem latchText_rsp_valid (t : List Byte) (s : State) : (latchText t s).rsp_valid = s.rsp_valid := rfl
@[simp] theorem latchText_draws (t : List Byte) (s : State) : (latchText t s).draws = s.draws := rfl
@[simp] theorem latchText_inputs (t : List Byte) (s : State) : (latchText t s).inputs = s.inputs := rfl
@[simp] theorem latchText_request (t : List Byte) (s : State) : (latchText t s).request = s.request := rfl
@[simp] theorem latchText_trace (t : List Byte) (s : State) : (latchText t s).trace = s.trace ++ [.acceptText t] := rfl
@[simp] theorem latchText_pat (t : List Byte) (s : State) : (latchText t s).pat = s.pat := rfl
@[simp] theorem latchText_rom (t : List Byte) (s : State) : (latchText t s).rom = s.rom := rfl

/-! ### storeAssembly -/

@[simp] theorem storeAssembly_scl_o (a : Assembly) (s : State) : (storeAssembly a s).scl_o = s.scl_o := rfl
@[simp] theorem storeAssembly_sda_o (a : Assembly) (s : State) : (storeAssembly a s).sda_o = s.sda_o := rfl
@[simp] theorem storeAssembly_drv_state (a : Assembly) (s : State) : (storeAssembly a s).drv_state = s.drv_state := rfl
@[simp] theorem storeAssembly_status (a : Assembly) (s : State) : (storeAssembly a s).status = s.status := rfl
@[simp] theorem storeAssembly_ack (a : Assembly) (s : State) : (storeAssembly a s).ack = s.ack := rfl
@[simp] theorem storeAssembly_buf (a : Assembly) (s : State) : (storeAssembly a s).buf = a.buf := rfl
@[simp] theorem storeAssembly_cursor (a : Assembly) (s : State) : (storeAssembly a s).cursor = a.cursor := rfl
@[simp] theorem storeAssembly_prog (a : Assembly) (s : State) : (storeAssembly a s).prog = s.prog := rfl
@[simp] theorem storeAssembly_upc (a : Assembly) (s : State) : (storeAssembly a s).upc = s.upc := rfl
@[simp] theorem storeAssembly_wcnt (a : Assembly) (s : State) : (storeAssembly a s).wcnt = s.wcnt := rfl
@[simp] theorem storeAssembly_op_l (a : Assembly) (s : State) : (storeAssembly a s).op_l = s.op_l := rfl
@[simp] theorem storeAssembly_level_l (a : Assembly) (s : State) : (storeAssembly a s).level_l = s.level_l := rfl
@[simp] theorem storeAssembly_text_l (a : Assembly) (s : State) : (storeAssembly a s).text_l = s.text_l := rfl
@[simp] theorem storeAssembly_rsp_valid (a : Assembly) (s : State) : (storeAssembly a s).rsp_valid = s.rsp_valid := rfl
@[simp] theorem storeAssembly_draws (a : Assembly) (s : State) : (storeAssembly a s).draws = s.draws := rfl
@[simp] theorem storeAssembly_inputs (a : Assembly) (s : State) : (storeAssembly a s).inputs = s.inputs := rfl
@[simp] theorem storeAssembly_request (a : Assembly) (s : State) : (storeAssembly a s).request = s.request := rfl
@[simp] theorem storeAssembly_trace (a : Assembly) (s : State) : (storeAssembly a s).trace = s.trace := rfl
@[simp] theorem storeAssembly_pat (a : Assembly) (s : State) : (storeAssembly a s).pat = s.pat := rfl
@[simp] theorem storeAssembly_rom (a : Assembly) (s : State) : (storeAssembly a s).rom = s.rom := rfl

/-! ### returnPattern -/

@[simp] theorem returnPattern_scl_o (c : Byte) (s : State) : (returnPattern c s).scl_o = s.scl_o := rfl
@[simp] theorem returnPattern_sda_o (c : Byte) (s : State) : (returnPattern c s).sda_o = s.sda_o := rfl
@[simp] theorem returnPattern_drv_state (c : Byte) (s : State) : (returnPattern c s).drv_state = s.drv_state := rfl
@[simp] theorem returnPattern_status (c : Byte) (s : State) : (returnPattern c s).status = s.status := rfl
@[simp] theorem returnPattern_ack (c : Byte) (s : State) : (returnPattern c s).ack = s.ack := rfl
@[simp] theorem returnPattern_buf (c : Byte) (s : State) : (returnPattern c s).buf = s.buf := rfl
@[simp] theorem returnPattern_cursor (c : Byte) (s : State) : (returnPattern c s).cursor = s.cursor := rfl
@[simp] theorem returnPattern_prog (c : Byte) (s : State) : (returnPattern c s).prog = s.prog := rfl
@[simp] theorem returnPattern_upc (c : Byte) (s : State) : (returnPattern c s).upc = s.upc := rfl
@[simp] theorem returnPattern_wcnt (c : Byte) (s : State) : (returnPattern c s).wcnt = s.wcnt := rfl
@[simp] theorem returnPattern_op_l (c : Byte) (s : State) : (returnPattern c s).op_l = s.op_l := rfl
@[simp] theorem returnPattern_level_l (c : Byte) (s : State) : (returnPattern c s).level_l = s.level_l := rfl
@[simp] theorem returnPattern_text_l (c : Byte) (s : State) : (returnPattern c s).text_l = s.text_l := rfl
@[simp] theorem returnPattern_rsp_valid (c : Byte) (s : State) : (returnPattern c s).rsp_valid = s.rsp_valid := rfl
@[simp] theorem returnPattern_draws (c : Byte) (s : State) : (returnPattern c s).draws = s.draws := rfl
@[simp] theorem returnPattern_inputs (c : Byte) (s : State) : (returnPattern c s).inputs = s.inputs := rfl
@[simp] theorem returnPattern_request (c : Byte) (s : State) : (returnPattern c s).request = s.request := rfl
@[simp] theorem returnPattern_trace (c : Byte) (s : State) : (returnPattern c s).trace = s.trace := rfl
@[simp] theorem returnPattern_pat (c : Byte) (s : State) : (returnPattern c s).pat = romRead s.rom c := rfl
@[simp] theorem returnPattern_rom (c : Byte) (s : State) : (returnPattern c s).rom = s.rom := rfl

end Sys2Proof.Machine
end

