-- ==== Sys2Proof/Laws/Ops.lean ====
section
/-! SUPPORT. The lemmas of the shared operations: what a list of micro-ops does, said once (`runOps_eq`), and
the end levels, samples and lengths of the lists the meanings run. -/

namespace Sys2Proof.Machine

/-! ### Lists of micro-ops -/

theorem runOps_append (xs ys : List MicroOp) (s : State) :
    runOps (xs ++ ys) s = runOps ys (runOps xs s) := by
  induction xs generalizing s with
  | nil => rfl
  | cons op xs ih => exact ih _

theorem endLevels_append (xs ys : List MicroOp) (cd : Level × Level) :
    endLevels (xs ++ ys) cd = endLevels ys (endLevels xs cd) := by
  induction xs generalizing cd with
  | nil => rfl
  | cons op xs ih => cases op <;> exact ih _

theorem sampleCount_append (xs ys : List MicroOp) :
    sampleCount (xs ++ ys) = sampleCount xs + sampleCount ys := by
  induction xs with
  | nil => simp [sampleCount]
  | cons op xs ih => cases op <;> simp [sampleCount, ih]; omega

theorem eventsOf_append (xs ys : List MicroOp) (n : Nat) :
    eventsOf (xs ++ ys) n = eventsOf xs n ++ eventsOf ys (n + sampleCount xs) := by
  induction xs generalizing n with
  | nil => simp [eventsOf, sampleCount]
  | cons op xs ih =>
    cases op <;> simp [eventsOf, sampleCount, ih]
    congr 1; omega

theorem waitsOf_append (xs ys : List MicroOp) : waitsOf (xs ++ ys) = waitsOf xs ++ waitsOf ys := by
  induction xs with
  | nil => rfl
  | cons op xs ih => cases op <;> simp [waitsOf, ih]

@[simp] theorem microOps_append (xs ys : List Event) : microOps (xs ++ ys) = microOps xs ++ microOps ys := by
  simp [microOps]

/-- The events of a list of micro-ops record that list. -/
@[simp] theorem microOps_eventsOf (ops : List MicroOp) (n : Nat) : microOps (eventsOf ops n) = ops := by
  induction ops generalizing n with
  | nil => rfl
  | cons op ops ih => cases op <;> simpa [eventsOf, microOps, Event.microOp] using ih _

/-- The ack register after a list of micro-ops: its last sample, if it has one. -/
def ackAfter (ops : List MicroOp) (s : State) : Level :=
  if sampleCount ops = 0 then s.ack else Config.sdaIn (s.draws + sampleCount ops - 1)

/-- Everything a list of micro-ops can do: it moves the lines, takes its samples and leaves its events. -/
theorem runOps_eq (ops : List MicroOp) (s : State) :
    runOps ops s = { s with
      scl_o := (endLevels ops (s.scl_o, s.sda_o)).1
      sda_o := (endLevels ops (s.scl_o, s.sda_o)).2
      ack := ackAfter ops s
      draws := s.draws + sampleCount ops
      trace := s.trace ++ eventsOf ops s.draws } := by
  induction ops generalizing s with
  | nil => simp [runOps, endLevels, ackAfter, sampleCount, eventsOf]
  | cons op ops ih =>
    rw [runOps, ih]
    have h : s.draws + 1 + sampleCount ops = s.draws + (sampleCount ops + 1) := by omega
    by_cases h0 : sampleCount ops = 0 <;> cases op <;>
      simp [doMicro, takeSample, sampledLevel, endLevels, ackAfter, sampleCount, eventsOf, h0, h]

/-- A list of micro-ops with a single sample. -/
theorem runOps_one_sample {ops : List MicroOp} (h : sampleCount ops = 1) (s : State) :
    runOps ops s = { s with
      scl_o := (endLevels ops (s.scl_o, s.sda_o)).1
      sda_o := (endLevels ops (s.scl_o, s.sda_o)).2
      ack := Config.sdaIn s.draws
      draws := s.draws + 1
      trace := s.trace ++ eventsOf ops s.draws } := by
  rw [runOps_eq]; simp [ackAfter, h]

/-! ### One byte -/

theorem dataOps_endLevels (v : Byte) (cd : Level × Level) : endLevels (dataOps v) cd = (0, bitAt v 7) := rfl

theorem ackOps_endLevels (cd : Level × Level) : endLevels ackOps cd = (0, cd.2) := rfl

theorem startOps_endLevels (cd : Level × Level) : endLevels startOps cd = (0, 0) := rfl

theorem stopOps_endLevels (cd : Level × Level) : endLevels stopOps cd = (1, 1) := rfl

/-- A bit vector of width 1 is 0 or 1. -/
theorem level_cases (b : BitVec 1) : b = 0 ∨ b = 1 := by
  revert b; decide

theorem sendByteOps_endLevels (v : Byte) (s p : BitVec 1) (cd : Level × Level) :
    endLevels (sendByteOps v s p) cd = (p, if p = 1 then 1 else bitAt v 7) := by
  rcases level_cases s with rfl | rfl <;> rcases level_cases p with rfl | rfl <;> rfl

@[simp] theorem sendByteOps_sampleCount (v : Byte) (s p : BitVec 1) : sampleCount (sendByteOps v s p) = 1 := by
  rcases level_cases s with rfl | rfl <;> rcases level_cases p with rfl | rfl <;> rfl

theorem sendByteOps_length (v : Byte) (s p : BitVec 1) :
    (sendByteOps v s p).length = 55 + (if s = 1 then 4 else 0) + (if p = 1 then 4 else 0) := by
  rcases level_cases s with rfl | rfl <;> rcases level_cases p with rfl | rfl <;> rfl

/-! ### Programs -/

@[simp] theorem initProg_length : initProg.length = 127 := by
  simp [initProg, initSeqOps, sendByteOps_length]

@[simp] theorem brightProg_length (b : Byte) : (brightProg b).length = 63 := by
  simp [brightProg, sendByteOps_length]

@[simp] theorem textProg_length (d0 d1 d2 d3 : Byte) : (textProg d0 d1 d2 d3).length = 283 := by
  simp [textProg, textFrameOps, sendByteOps_length]

theorem initProg_endLevels (cd : Level × Level) : endLevels initProg cd = (1, 1) := by
  simp [initProg, initSeqOps, endLevels_append, sendByteOps_endLevels, endLevels]

theorem brightProg_endLevels (b : Byte) (cd : Level × Level) : endLevels (brightProg b) cd = (1, 1) :=
  sendByteOps_endLevels b 1 1 cd

theorem textProg_endLevels (d0 d1 d2 d3 : Byte) (cd : Level × Level) :
    endLevels (textProg d0 d1 d2 d3) cd = (1, 1) := by
  simp [textProg, textFrameOps, endLevels_append, sendByteOps_endLevels]

/-! ### Selection of the brightness byte (R140) -/

theorem brightCommand_blank {level : Int} (h : level ≤ 0) : brightCommand level = .ok 0x80 := by
  simp [brightCommand, h]

theorem brightCommand_level {level : Int} (h : 1 ≤ level) (h' : level ≤ 8) :
    brightCommand level = .ok (0x88 ||| BitVec.ofInt 8 (level - 1)) := by
  have : ¬ level ≤ 0 := by omega
  simp [brightCommand, this, h']

theorem brightCommand_error {level : Int} (h : 9 ≤ level) :
    brightCommand level = .error .invalidBrightnessLevel := by
  have h0 : ¬ level ≤ 0 := by omega
  have h8 : ¬ level ≤ 8 := by omega
  simp [brightCommand, h0, h8]

/-- The one error of the selection, and when it succeeds. -/
theorem brightCommand_cases (level : Int) :
    (level ≤ 8 ∧ ∃ b, brightCommand level = .ok b) ∨
      (9 ≤ level ∧ brightCommand level = .error .invalidBrightnessLevel) := by
  by_cases h : level ≤ 0
  · exact .inl ⟨by omega, _, brightCommand_blank h⟩
  · by_cases h8 : level ≤ 8
    · exact .inl ⟨h8, _, brightCommand_level (by omega) h8⟩
    · exact .inr ⟨by omega, brightCommand_error (by omega)⟩

/-! ### The font ROM as memory -/

/-- The default ROM is in canonical form. No operation writes it, so every state keeps the form. -/
theorem fontRom_wf : Memory.wf fontRom = true := by decide

end Sys2Proof.Machine
end

