-- ==== Sys2Proof/Laws/PerInstr.lean ====
section
/-! SUPPORT. The family Canonical, one lemma per constructor: the row the decoder answers for an instruction is
its own canonical row, and it is well-formed if the instruction is. -/

namespace Sys2Proof.Laws.Canonical

/-- The claim on one instruction. -/
def Statement (i : Instr) : Prop :=
  canonical (canonical i) = canonical i ∧ (i.wf = true → (canonical i).wf = true)

/-- A row that is its own canonical row. -/
theorem of_fixed {i : Instr} (h : canonical i = i) : Statement i := by
  constructor
  · rw [h, h]
  · rw [h]; exact id

/-- What a list of font rows answers is one of its rows. -/
theorem fontRow_mem {rows : List (Byte × Instr)} {c : Byte} {i : Instr} (h : fontRow rows c = some i) :
    (c, i) ∈ rows := by
  induction rows with
  | nil => simp [fontRow] at h
  | cons row rows ih =>
    obtain ⟨k, j⟩ := row
    by_cases hk : k = c
    · simp only [fontRow, hk, if_true, Option.some.injEq] at h
      simp [hk, h]
    · simp only [fontRow, hk, if_false] at h
      exact List.mem_cons_of_mem _ (ih h)

/-- Every font row is its own canonical row and well-formed. -/
theorem fontCodes_fixed : ∀ row ∈ fontCodes, canonical row.2 = row.2 ∧ row.2.wf = true := by decide

theorem unblank : Statement .unblank := of_fixed rfl

theorem blank : Statement .blank := of_fixed rfl

theorem setAutoinc : Statement .setAutoinc := of_fixed rfl

theorem brightnessByte (b : BitVec 3) : Statement (.brightnessByte b) := by
  by_cases h : b = 7
  · subst h; exact ⟨rfl, fun _ => rfl⟩
  · exact of_fixed (by rw [canonical, if_neg h])

theorem setStartAddr : Statement .setStartAddr := of_fixed rfl

theorem data (d : Byte) : Statement (.data d) := of_fixed rfl

theorem dataLast (d : Byte) : Statement (.dataLast d) := of_fixed rfl

theorem initSeq : Statement .initSeq := of_fixed rfl

theorem brightSelect (level : Int) : Statement (.brightSelect level) := of_fixed rfl

theorem textFrame (d0 d1 d2 d3 : Byte) : Statement (.textFrame d0 d1 d2 d3) := of_fixed rfl

theorem setBrightness (level : BitVec 8) : Statement (.setBrightness level) := of_fixed rfl

theorem setText (text : List Byte) : Statement (.setText text) := of_fixed rfl

theorem init : Statement .init := of_fixed rfl

theorem sendByte (v : Byte) (s p : BitVec 1) : Statement (.sendByte v s p) := of_fixed rfl

theorem bit (b : Level) : Statement (.bit b) := of_fixed rfl

theorem ackPhase : Statement .ackPhase := of_fixed rfl

theorem start : Statement .start := of_fixed rfl

theorem stop : Statement .stop := of_fixed rfl

theorem sda (v : Level) : Statement (.sda v) := of_fixed rfl

theorem scl (v : Level) : Statement (.scl v) := of_fixed rfl

theorem wait (n : Nat) : Statement (.wait n) := of_fixed rfl

theorem sample : Statement .sample := of_fixed rfl

theorem encode (c : Byte) : Statement (.encode c) := by
  cases h : fontRow fontCodes c with
  | none => exact of_fixed (by simp [canonical, decodeChar, h])
  | some i =>
    have hi : canonical (.encode c) = i := by simp [canonical, decodeChar, h]
    obtain ⟨hc, hw⟩ := fontCodes_fixed _ (fontRow_mem h)
    exact ⟨by rw [hi]; exact hc, fun _ => by rw [hi]; exact hw⟩

theorem assemble (text : List Byte) : Statement (.assemble text) := of_fixed rfl

theorem font0 : Statement .font0 := of_fixed rfl

theorem font1 : Statement .font1 := of_fixed rfl

theorem font2 : Statement .font2 := of_fixed rfl

theorem font3 : Statement .font3 := of_fixed rfl

theorem font4 : Statement .font4 := of_fixed rfl

theorem font5 : Statement .font5 := of_fixed rfl

theorem font6 : Statement .font6 := of_fixed rfl

theorem font7 : Statement .font7 := of_fixed rfl

theorem font8 : Statement .font8 := of_fixed rfl

theorem font9 : Statement .font9 := of_fixed rfl

theorem font_A : Statement .font_A := of_fixed rfl

theorem font_b : Statement .font_b := of_fixed rfl

theorem font_C : Statement .font_C := of_fixed rfl

theorem font_c : Statement .font_c := of_fixed rfl

theorem font_D : Statement .font_D := of_fixed rfl

theorem font_d : Statement .font_d := of_fixed rfl

theorem font_E : Statement .font_E := of_fixed rfl

theorem font_F : Statement .font_F := of_fixed rfl

theorem font_H : Statement .font_H := of_fixed rfl

theorem font_h : Statement .font_h := of_fixed rfl

theorem font_I : Statement .font_I := of_fixed rfl

theorem font_i : Statement .font_i := of_fixed rfl

theorem font_J : Statement .font_J := of_fixed rfl

theorem font_L : Statement .font_L := of_fixed rfl

theorem font_l : Statement .font_l := of_fixed rfl

theorem font_n : Statement .font_n := of_fixed rfl

theorem font_o : Statement .font_o := of_fixed rfl

theorem font_P : Statement .font_P := of_fixed rfl

theorem font_r : Statement .font_r := of_fixed rfl

theorem font_t : Statement .font_t := of_fixed rfl

theorem font_u : Statement .font_u := of_fixed rfl

theorem font_Y : Statement .font_Y := of_fixed rfl

theorem fontSpace : Statement .fontSpace := of_fixed rfl

theorem fontMinus : Statement .fontMinus := of_fixed rfl

theorem fontEquals : Statement .fontEquals := of_fixed rfl

theorem fontDot : Statement .fontDot := of_fixed rfl

end Sys2Proof.Laws.Canonical
end

