-- ==== Sys2Proof/Laws/Step.lean ====
section
/-! SUPPORT. The lemmas of the step: what its priority order comes to where no reset and no request stand, and
how runs of several steps compose. -/

namespace Sys2Proof.Machine

/-- The meaning of a micro-op is its effect. -/
theorem exec_toInstr (op : MicroOp) (s : State) : exec op.toInstr s = .next (doMicro op s) := by
  cases op <;> rfl

/-- Without reset and without a request, the step is the sequencer's. -/
theorem step_of_quiet (s : State) (h : (portsNow s).rst = 0) (hr : s.request = none) :
    step s = sequencerStep (portsNow s) (beginStep s) := by
  simp [step, stepBody, h, beginStep, hr]

/-- The next micro-op where a program runs. -/
theorem nextOp_running (s : State) (hd : s.drv_state ≠ .idle) : nextOp s = s.prog[s.upc.toNat]? := by
  cases h : s.drv_state <;> simp_all [nextOp]

/-- There is no next micro-op in IDLE. -/
theorem nextOp_idle (s : State) (hd : s.drv_state = .idle) : nextOp s = none := by
  simp [nextOp, hd]

/-- A step inside a program executes its micro-op. -/
theorem step_micro (s : State) (op : MicroOp) (h : (portsNow s).rst = 0) (hr : s.request = none)
    (hd : s.drv_state ≠ .idle) (hop : s.prog[s.upc.toNat]? = some op) :
    step s = .next (advance (doMicro op (beginStep s))) := by
  have hn : nextOp (beginStep s) = some op := by rw [nextOp_running (beginStep s) hd]; exact hop
  simp only [step_of_quiet s h hr, sequencerStep, hn, exec_toInstr, mapNext]

/-- A run begins with a step. -/
theorem runSteps_succ {n : Nat} {s t : State} (h : step s = .next t) : runSteps (n + 1) s = runSteps n t := by
  rw [runSteps, h]

/-- A run of `m + n` steps is a run of `n` after a run of `m`. -/
theorem runSteps_add {m n : Nat} {s t : State} (h : runSteps m s = .next t) :
    runSteps (m + n) s = runSteps n t := by
  induction m generalizing s with
  | zero => cases h; rw [Nat.zero_add]
  | succ m ih =>
    rw [Nat.succ_add, runSteps]
    rw [runSteps] at h
    cases hs : step s with
    | next s1 => rw [hs] at h; exact ih h
    | fault r => cases r
    | refused r => rw [hs] at h; cases h

/-- One step of the host's run. -/
theorem core_run_succ (M : Host.Core) (n : Nat) (s : M.State) :
    M.run (n + 1) s = match M.step s with
      | .next t => M.run n t
      | .fault r => .fault r
      | .refused r => .refused r := rfl

/-- `runSteps` is the run of the machine the host holds. -/
theorem core_run_eq (n : Nat) (s : State) : Sys2Proof.core.run n s = runSteps n s := by
  induction n generalizing s with
  | zero => rfl
  | succ n ih =>
    refine (core_run_succ core n s).trans ?_
    unfold runSteps
    cases hs : step s with
    | next t =>
      have hc : core.step s = .next t := hs
      rw [hc]; exact ih t
    | fault r => cases r
    | refused r =>
      have hc : core.step s = .refused r := hs
      rw [hc]; rfl

end Sys2Proof.Machine
end

