-- ==== Sys2Proof/Laws/Text.lean ====
section
/-! SUPPORT. The lemmas of text assembly: the three moves of the scan (R155, R156, R157), and what they keep. -/

namespace Sys2Proof.Machine

/-- A value of the parameter FONT_ROM meets R153, and has one pattern for `D` and `d` (R151). -/
theorem fontRomWf_iff (rom : List Host.Cell) :
    fontRomWf rom = true ↔ fontRomRequirements rom = true ∧ romRead rom 0x44 = romRead rom 0x64 := by
  simp [fontRomWf]

/-- R151: under such a ROM a code reads as it does with `D` written `d`. -/
theorem romRead_lowerD {rom : List Host.Cell} (h : fontRomWf rom = true) (c : Byte) :
    romRead rom (lowerD c) = romRead rom c := by
  unfold lowerD
  split
  · next hc => rw [hc, ((fontRomWf_iff rom).1 h).2]
  · rfl

/-- R157: nothing is examined once the cursor is 4. -/
theorem scanText_full (rom : List Host.Cell) (text : List Byte) (buf : DigitBuffer) :
    scanText rom text buf 4 = ⟨buf, 4, .ok⟩ := by
  cases text <;> simp [scanText]

/-- R155: a decimal point at the beginning. -/
theorem scanText_leading_dot (rom : List Host.Cell) (text : List Byte) (buf : DigitBuffer) :
    scanText rom (Config.dotChar :: text) buf 0 = ⟨buf, 0, .invalidDecimalPointPlacement⟩ := by
  simp [scanText]

/-- R155: a decimal point after a digit. -/
theorem scanText_dot (rom : List Host.Cell) (text : List Byte) (buf : DigitBuffer) {cursor : BitVec 3}
    (h0 : cursor ≠ 0) (h4 : cursor ≠ 4) :
    scanText rom (Config.dotChar :: text) buf cursor =
      scanText rom text (buf.orAt (cursor - 1) Config.dotBit) cursor := by
  rw [scanText, if_neg h4, if_pos rfl, if_neg h0]

/-- R156: a character of the ROM. -/
theorem scanText_char (rom : List Host.Cell) (text : List Byte) (buf : DigitBuffer) {cursor : BitVec 3}
    {c p : Byte} (h4 : cursor ≠ 4) (hc : c ≠ Config.dotChar) (hp : romRead rom c = some p) :
    scanText rom (c :: text) buf cursor = scanText rom text (buf.orAt cursor p) (cursor + 1) := by
  rw [scanText, if_neg h4, if_neg hc, hp]

/-- R156: an unsupported character. -/
theorem scanText_unsupported (rom : List Host.Cell) (text : List Byte) (buf : DigitBuffer)
    {cursor : BitVec 3} {c : Byte} (h4 : cursor ≠ 4) (hc : c ≠ Config.dotChar) (hp : romRead rom c = none) :
    scanText rom (c :: text) buf cursor = ⟨buf, cursor, .unsupportedCharacter⟩ := by
  rw [scanText, if_neg h4, if_neg hc, hp]

/-- What every move of the scan keeps, the scan keeps: an induction over the text, packaged once. -/
theorem scanText_keeps (rom : List Host.Cell) (P : DigitBuffer → BitVec 3 → Prop)
    (dot : ∀ buf cursor, P buf cursor → cursor ≠ 0 → cursor ≠ 4 →
      P (buf.orAt (cursor - 1) Config.dotBit) cursor)
    (char : ∀ buf cursor c p, P buf cursor → cursor ≠ 4 → c ≠ Config.dotChar → romRead rom c = some p →
      P (buf.orAt cursor p) (cursor + 1))
    (text : List Byte) (buf : DigitBuffer) (cursor : BitVec 3) (h : P buf cursor) :
    P (scanText rom text buf cursor).buf (scanText rom text buf cursor).cursor := by
  induction text generalizing buf cursor with
  | nil => simpa [scanText] using h
  | cons c text ih =>
    by_cases h4 : cursor = 4
    · subst h4; rw [scanText_full]; exact h
    · by_cases hc : c = Config.dotChar
      · subst hc
        by_cases h0 : cursor = 0
        · subst h0; rw [scanText_leading_dot]; exact h
        · rw [scanText_dot rom text buf h0 h4]
          exact ih _ _ (dot _ _ h h0 h4)
      · cases hp : romRead rom c with
        | none => rw [scanText_unsupported rom text buf h4 hc hp]; exact h
        | some p =>
          rw [scanText_char rom text buf h4 hc hp]
          exact ih _ _ (char _ _ _ _ h h4 hc hp)

/-- Dots after a digit that is not the fourth: one or more set the dot bit of that digit. -/
theorem scanText_dots (rom : List Host.Cell) (text : List Byte) (buf : DigitBuffer) {cursor : BitVec 3}
    (h0 : cursor ≠ 0) (h4 : cursor ≠ 4) (n : Nat) :
    scanText rom (List.replicate n Config.dotChar ++ text) buf cursor =
      scanText rom text (if n = 0 then buf else buf.orAt (cursor - 1) Config.dotBit) cursor := by
  have orTwice : ∀ (b : DigitBuffer) (i : BitVec 3) (p : Byte), (b.orAt i p).orAt i p = b.orAt i p := by
    intro b i p
    unfold DigitBuffer.orAt
    split_ifs <;> simp_all [BitVec.or_assoc]
  induction n generalizing buf with
  | zero => simp
  | succ n ih =>
    rw [List.replicate_succ, List.cons_append, scanText_dot rom _ buf h0 h4, ih]
    by_cases hn : n = 0
    · simp [hn]
    · simp [hn, orTwice]

end Sys2Proof.Machine
end

