-- ==== Sys2Proof/Tests/Slice0.lean ====
section
/-! SUPPORT. Tests of the model: ill-formed terms the checks refuse, words written out from the spec's encodings,
the spec's vectors V1 to V51 (`95_test_vectors.md`, "V n" below), and one witness for the hypotheses of every
statement that has some. -/

namespace Sys2Proof.Tests

open Sys2Proof Sys2Proof.Machine

/-! ### States the tests begin from -/

/-- The state of an outcome that is a next state. -/
def after : Host.Outcome State Fault Refusal → Option State
  | .next s => some s
  | _ => none

/-- Whether an outcome refuses an encoding. -/
def refusesEncoding : Host.Outcome State Fault Refusal → Bool
  | .refused (.undefinedEncoding _) => true
  | _ => false

/-- The end state of V41 for a first and second draw of 0. -/
def ready : State := { State.reset with drv_state := .idle, upc := 127, draws := 2, ack := 0 }

/-- `ready` with a command on the port. -/
def offering (op : BitVec 1) (level : BitVec 8) (text : List Byte) : State :=
  { ready with inputs := [⟨0, 1, op, level, text, 1⟩] }

/-- In the transmission of V10, before the micro-op of index `n`. -/
def sending (n : BitVec 9) : State :=
  { ready with drv_state := .transmitting, prog := brightProg 0x8C, upc := n }

/-- A state with `rst` asserted. -/
def withRst (s : State) : State := { s with inputs := [⟨1, 0, 0, 0, [], 1⟩] }

/-! The spec's abbreviations of the micro-ops (`95_test_vectors.md`, Notation). -/

abbrev SDA0 : MicroOp := .sda 0
abbrev SDA1 : MicroOp := .sda 1
abbrev SCL0 : MicroOp := .scl 0
abbrev SCL1 : MicroOp := .scl 1
abbrev W100 : MicroOp := .wait 100
abbrev W200 : MicroOp := .wait 200
abbrev W300 : MicroOp := .wait 300
abbrev W600 : MicroOp := .wait 600
abbrev W10000 : MicroOp := .wait 10000
abbrev SAMPLE : MicroOp := .sample

/-- The text "12.34" (E3). -/
def text1234 : List Byte := [0x31, 0x32, 0x2E, 0x33, 0x34]

/-- The text ".abc" (E4). -/
def textDotAbc : List Byte := [0x2E, 0x61, 0x62, 0x63]

/-! ### Well-formedness -/

/-- The closed set of wait labels (R5): a label outside it is refused, as an operation and in a program. -/
theorem test_wf_refuses_a_wait_outside_the_set :
    Instr.wf (.wait 150) = false ∧ MicroOp.wf (.wait 0) = false ∧ MicroOp.wf (.wait 10001) = false := by
  decide

theorem test_wf_accepts_the_wait_labels :
    (∀ n ∈ [100, 200, 300, 600, 10000], Instr.wf (.wait n) = true) ∧ Instr.wf .unblank = true := by decide

/-- R153: a ROM with bit 7 set in a digit's pattern is refused. -/
theorem test_rom_refuses_bit_7_in_a_digit :
    fontRomWf (fontRom.map fun c => if c.1 = 0x30 then (c.1, 0xBF) else c) = false := by decide

/-- R153: a ROM whose decimal point is not 0x80 is refused. -/
theorem test_rom_refuses_another_dot :
    fontRomWf (fontRom.map fun c => if c.1 = 0x2E then (c.1, 0x00) else c) = false := by decide

/-- A ROM that draws `d` as 0x5C, and one that draws both `D` and `d` so. -/
def romOfTwoDs : List Host.Cell := fontRom.map fun c => if c.1 = 0x64 then (c.1, 0x5C) else c
def romOfOtherD : List Host.Cell := fontRom.map fun c => if c.1 = 0x44 ∨ c.1 = 0x64 then (c.1, 0x5C) else c

/-- R151: a ROM with two patterns for `D` and `d` is refused though it meets R153, and one with another pattern for
both is admitted. -/
theorem test_rom_refuses_two_patterns_for_D :
    fontRomRequirements romOfTwoDs = true ∧ fontRomWf romOfTwoDs = false ∧ fontRomWf romOfOtherD = true := by decide

/-- R151: a ROM that lacks a key is refused. -/
theorem test_rom_refuses_a_missing_key : fontRomWf fontRom.tail = false := by decide

/-- A ROM with a further key is refused (R151), and so is one that is not in canonical form. -/
theorem test_rom_refuses_more_keys_and_disorder :
    fontRomWf (fontRom ++ [(0x7A, 0x5B)]) = false ∧ fontRomWf fontRom.reverse = false := by decide

/-! ### Decoding: words written out from the encodings of `30_encoding.md` -/

/-- R72 to R76: the wire commands. -/
theorem test_decode_wire_commands :
    decode (.w 0b10001111) = .ok .unblank ∧ decode (.w 0b10000000) = .ok .blank ∧
      decode (.w 0b01000000) = .ok .setAutoinc ∧ decode (.w 0b11000000) = .ok .setStartAddr ∧
      decode (.w 0b10001000) = .ok (.brightnessByte 0b000) ∧
      decode (.w 0b10001110) = .ok (.brightnessByte 0b110) := by decide

/-- R71: bytes next to the command bytes are no commands. -/
theorem test_decode_refuses_other_bytes :
    decode (.w 0b10000111) = .error (.notACommandByte 0b10000111) ∧
      decode (.w 0b10010000) = .error (.notACommandByte 0b10010000) ∧
      decode (.w 0b11000001) = .error (.notACommandByte 0b11000001) ∧
      decode (.w 0b00000000) = .error (.notACommandByte 0b00000000) := by decide

/-- R136: data is told apart by its position, and 0x40 in data position is data (R78). -/
theorem test_decode_data :
    decode (.wd false 0b01000000) = .ok (.data 0b01000000) ∧
      decode (.wd true 0b01100110) = .ok (.dataLast 0b01100110) := by decide

/-- R78: frames; SET_START_ADDR does not stand alone (C4), and a text frame has five bytes. -/
theorem test_decode_frames :
    decode (.frame [0b11000000, 0x06, 0xDB, 0x4F, 0x66]) = .ok (.textFrame 0x06 0xDB 0x4F 0x66) ∧
      decode (.frame [0b10000000]) = .ok .blank ∧
      decode (.frame [0b11000000]) = .error (.notAFrame [0b11000000]) ∧
      decode (.frame [0b11000000, 1, 2, 3]) = .error (.notAFrame [0b11000000, 1, 2, 3]) ∧
      decode (.frame [0b01000000, 1, 2, 3, 4]) = .error (.notAFrame [0b01000000, 1, 2, 3, 4]) ∧
      decode (.frame []) = .error (.notAFrame []) := by decide

/-- R86, R87: the host command port and the internal requests. -/
theorem test_decode_host_and_internal_requests :
    decode (.h 0 0b00000101 []) = .ok (.setBrightness 5) ∧
      decode (.h 1 0 text1234) = .ok (.setText [0x31, 0x32, 0x2E, 0x33, 0x34]) ∧
      decode (.p 0b1010001100) = .ok (.sendByte 0x8C 0 1) ∧
      decode (.p 0b0111000000) = .ok (.sendByte 0xC0 1 0) ∧
      decode (.l 0b0) = .ok .start ∧ decode (.l 0b1) = .ok .stop := by decide

/-- R150: a code that is no key is an ENCODE. -/
theorem test_decode_other_characters :
    decode (.char 0b01011010) = .ok (.encode 0x5A) ∧ decode (.char 0b11111111) = .ok (.encode 0xFF) := by decide

/-- R152: the codes of the digits, space, minus, equals and the decimal point. -/
theorem test_decode_digits_and_signs :
    decode (.char 0b00110000) = .ok .font0 ∧ decode (.char 0b00110001) = .ok .font1 ∧
      decode (.char 0b00110010) = .ok .font2 ∧ decode (.char 0b00110011) = .ok .font3 ∧
      decode (.char 0b00110100) = .ok .font4 ∧ decode (.char 0b00110101) = .ok .font5 ∧
      decode (.char 0b00110110) = .ok .font6 ∧ decode (.char 0b00110111) = .ok .font7 ∧
      decode (.char 0b00111000) = .ok .font8 ∧ decode (.char 0b00111001) = .ok .font9 ∧
      decode (.char 0b00100000) = .ok .fontSpace ∧ decode (.char 0b00101101) = .ok .fontMinus ∧
      decode (.char 0b00111101) = .ok .fontEquals ∧ decode (.char 0b00101110) = .ok .fontDot := by decide

/-- R152: the codes of the upper-case letters. -/
theorem test_decode_upper_case :
    decode (.char 0b01000001) = .ok .font_A ∧ decode (.char 0b01000011) = .ok .font_C ∧
      decode (.char 0b01000100) = .ok .font_D ∧ decode (.char 0b01000101) = .ok .font_E ∧
      decode (.char 0b01000110) = .ok .font_F ∧ decode (.char 0b01001000) = .ok .font_H ∧
      decode (.char 0b01001001) = .ok .font_I ∧ decode (.char 0b01001010) = .ok .font_J ∧
      decode (.char 0b01001100) = .ok .font_L ∧ decode (.char 0b01010000) = .ok .font_P ∧
      decode (.char 0b01011001) = .ok .font_Y := by decide

/-- R152: the codes of the lower-case letters. -/
theorem test_decode_lower_case :
    decode (.char 0b01100010) = .ok .font_b ∧ decode (.char 0b01100011) = .ok .font_c ∧
      decode (.char 0b01100100) = .ok .font_d ∧ decode (.char 0b01101000) = .ok .font_h ∧
      decode (.char 0b01101001) = .ok .font_i ∧ decode (.char 0b01101100) = .ok .font_l ∧
      decode (.char 0b01101110) = .ok .font_n ∧ decode (.char 0b01101111) = .ok .font_o ∧
      decode (.char 0b01110010) = .ok .font_r ∧ decode (.char 0b01110100) = .ok .font_t ∧
      decode (.char 0b01110101) = .ok .font_u := by decide

/-- The rows of format `none` and `uop` have no encoding (R70). -/
theorem test_rows_without_encoding :
    encode .initSeq = none ∧ encode (.brightSelect 5) = none ∧ encode .init = none ∧ encode (.bit 1) = none ∧
      encode .ackPhase = none ∧ encode (.sda 1) = none ∧ encode (.scl 0) = none ∧ encode (.wait 300) = none ∧
      encode .sample = none ∧ encode (.assemble []) = none := by decide

/-- R76, R87, R78: words of the encoder. -/
theorem test_encode_words :
    encode (.brightnessByte 0b100) = some (.w 0b10001100) ∧
      encode (.sendByte 0x8C 0 1) = some (.p 0b1010001100) ∧
      encode (.textFrame 0x06 0xDB 0x4F 0x66) = some (.frame [0xC0, 0x06, 0xDB, 0x4F, 0x66]) ∧
      encode (.data 0xDB) = some (.wd false 0xDB) ∧ encode (.dataLast 0x66) = some (.wd true 0x66) := by decide

/-- Words of the opcode table (log 12), and words no format has. -/
theorem test_decodeTableWord :
    decodeTableWord 8 0b10001011 = some (.brightnessByte 3) ∧ decodeTableWord 8 0b00100000 = some .fontSpace ∧
      decodeTableWord 8 0b01000010 = some (.encode 0x42) ∧
      decodeTableWord 16 0b11111011 = some (.setBrightness 0xFB) ∧
      decodeTableWord 16 0b0111000000 = some (.sendByte 0xC0 1 0) ∧
      decodeTableWord 40 0xC000000000 = some (.textFrame 0 0 0 0) ∧
      decodeTableWord 40 0x4000000000 = none ∧ decodeTableWord 16 1024 = none ∧ decodeTableWord 24 0 = none := by
  decide

/-! ### Micro-operations (R10) -/

theorem test_sda : (after (exec (.sda 0) ready)).map lines = some (1, 0) := by decide

theorem test_scl : (after (exec (.scl 0) ready)).map lines = some (0, 1) := by decide

/-- A write that changes nothing is a micro-op of the list all the same (D22). -/
theorem test_sda_same_level : (after (exec (.sda 1) ready)).map (·.trace) = some [.sda 1] := by decide

theorem test_wait : (after (exec (.wait 600) ready)).map (fun s => (lines s, s.wcnt, s.trace)) =
    some ((1, 1), none, [.wait 600]) := by decide

/-- `ack` takes the value of the data line, whatever it is. -/
theorem test_sample : (after (exec .sample ready)).map (fun s => (s.ack, s.draws)) =
    some (Config.sdaIn 2, 3) := rfl

/-! ### LineController (V1 to V3) -/

theorem test_start_V1 : (after (exec .start ready)).map lines = some (0, 0) ∧
    waveform 1 1 0 startOps = [⟨1, 1, 0⟩, ⟨1, 0, 300⟩, ⟨0, 0, 300⟩] := by decide

theorem test_stop_V2 :
    (after (exec .stop { ready with scl_o := 0, sda_o := 0 })).map lines = some (1, 1) ∧
      waveform 0 0 0 stopOps = [⟨0, 0, 0⟩, ⟨1, 0, 300⟩, ⟨1, 1, 300⟩] := by decide

theorem test_stop_V3 :
    (after (exec .stop { ready with scl_o := 0 })).map lines = some (1, 1) ∧
      waveform 0 1 0 stopOps = [⟨0, 1, 0⟩, ⟨1, 1, 600⟩] := by decide

/-- R12: the waveform of a trace, which the host's events do not change. -/
theorem test_trace_waveform_V1 :
    traceWaveform [.acceptBrightness 5, .sda 0, .wait 300, .scl 0, .wait 300, .sample 1, .response .ok] =
        [⟨1, 1, 0⟩, ⟨1, 0, 300⟩, ⟨0, 0, 300⟩] ∧
      hostEvents [.acceptBrightness 5, .sda 0, .sample 1, .response .ok] =
        [.acceptBrightness 5, .response .ok] := by decide

/-! ### ByteTransceiver (V10 to V14) -/

theorem test_bit : bitOps 1 = [.wait 200, .sda 1, .wait 100, .scl 1, .wait 300, .scl 0] ∧
    (after (exec (.bit 1) { ready with scl_o := 0, sda_o := 0 })).map lines = some (0, 1) := by decide

theorem test_ack_phase : ackOps = [.wait 300, .sample, .scl 1, .wait 600, .scl 0, .wait 300] ∧
    (after (exec .ackPhase { ready with scl_o := 0 })).map (fun s => (lines s, s.draws)) = some ((0, 1), 3) := by
  decide

/-- V10, the micro-op listing as the spec writes it out. -/
theorem test_send_byte_V10 : sendByteOps 0x8C 1 1 =
    [SDA0, W300, SCL0, W300, W200, SDA0, W100, SCL1, W300, SCL0, W200, SDA0] ++
    [W100, SCL1, W300, SCL0, W200, SDA1, W100, SCL1, W300, SCL0, W200, SDA1] ++
    [W100, SCL1, W300, SCL0, W200, SDA0, W100, SCL1, W300, SCL0, W200, SDA0] ++
    [W100, SCL1, W300, SCL0, W200, SDA0, W100, SCL1, W300, SCL0, W200, SDA1] ++
    [W100, SCL1, W300, SCL0, W300, SAMPLE, SCL1, W600, SCL0, W300, SCL1, W300] ++
    [SDA1, W300, W300] := by decide

/-- V11, the micro-op listing as the spec writes it out. -/
theorem test_send_byte_V11 : sendByteOps 0xDB 0 0 =
    [W200, SDA1, W100, SCL1, W300, SCL0, W200, SDA1, W100, SCL1, W300, SCL0] ++
    [W200, SDA0, W100, SCL1, W300, SCL0, W200, SDA1, W100, SCL1, W300, SCL0] ++
    [W200, SDA1, W100, SCL1, W300, SCL0, W200, SDA0, W100, SCL1, W300, SCL0] ++
    [W200, SDA1, W100, SCL1, W300, SCL0, W200, SDA1, W100, SCL1, W300, SCL0] ++
    [W300, SAMPLE, SCL1, W600, SCL0, W300, W300] := by decide

/-- V10, the waveform. -/
theorem test_waveform_V10 : waveform 1 1 0 (sendByteOps 0x8C 1 1) =
    [⟨1, 1, 0⟩, ⟨1, 0, 300⟩, ⟨0, 0, 600⟩, ⟨1, 0, 300⟩, ⟨0, 0, 300⟩, ⟨1, 0, 300⟩, ⟨0, 0, 200⟩] ++
    [⟨0, 1, 100⟩, ⟨1, 1, 300⟩, ⟨0, 1, 300⟩, ⟨1, 1, 300⟩, ⟨0, 1, 200⟩, ⟨0, 0, 100⟩, ⟨1, 0, 300⟩] ++
    [⟨0, 0, 300⟩, ⟨1, 0, 300⟩, ⟨0, 0, 300⟩, ⟨1, 0, 300⟩, ⟨0, 0, 200⟩, ⟨0, 1, 100⟩, ⟨1, 1, 300⟩] ++
    [⟨0, 1, 300⟩, ⟨1, 1, 600⟩, ⟨0, 1, 300⟩, ⟨1, 1, 900⟩] := by decide

/-- V13: lengths and nominal durations, and the nominal durations of V23 and V24. -/
theorem test_lengths_V13 :
    ((sendByteOps 0 0 0).length, nominalUs (sendByteOps 0 0 0)) = (55, 6300) ∧
      ((sendByteOps 0 1 0).length, nominalUs (sendByteOps 0 1 0)) = (59, 6900) ∧
      ((sendByteOps 0 0 1).length, nominalUs (sendByteOps 0 0 1)) = (59, 6900) ∧
      ((sendByteOps 0 1 1).length, nominalUs (sendByteOps 0 1 1)) = (63, 7500) ∧
      nominalUs initProg = 25000 ∧ nominalUs (textProg 1 2 3 4) = 32700 := by decide +kernel

/-- V14: what is sampled under the line contract. -/
theorem test_line_contract_V14 : wiredAnd 1 0 = 0 ∧ wiredAnd 1 1 = 1 ∧ wiredAnd 0 0 = 0 ∧ wiredAnd 0 1 = 0 := by
  decide

theorem test_send_byte_leaves_the_frame_open :
    (after (exec (.sendByte 0xC0 1 0) ready)).map (fun s => (lines s, s.draws)) = some ((0, 1), 3) ∧
      (after (exec (.sendByte 0x40 0 0) ready)).map lines = some (0, 0) := by decide

/-! ### Command framer (V20 to V24) -/

/-- V21, the waveform. -/
theorem test_unblank_V21 : waveform 1 1 0 (sendByteOps 0x8F 1 1) =
    [⟨1, 1, 0⟩, ⟨1, 0, 300⟩, ⟨0, 0, 500⟩, ⟨0, 1, 100⟩, ⟨1, 1, 300⟩, ⟨0, 1, 300⟩, ⟨1, 1, 300⟩] ++
    [⟨0, 1, 300⟩, ⟨1, 1, 300⟩, ⟨0, 1, 300⟩, ⟨1, 1, 300⟩, ⟨0, 1, 200⟩, ⟨0, 0, 100⟩, ⟨1, 0, 300⟩] ++
    [⟨0, 0, 300⟩, ⟨1, 0, 300⟩, ⟨0, 0, 300⟩, ⟨1, 0, 300⟩, ⟨0, 0, 200⟩, ⟨0, 1, 100⟩, ⟨1, 1, 300⟩] ++
    [⟨0, 1, 300⟩, ⟨1, 1, 600⟩, ⟨0, 1, 300⟩, ⟨1, 1, 900⟩] := by decide

/-- V21, the waveform. -/
theorem test_blank_V21 : waveform 1 1 0 (sendByteOps 0x80 1 1) =
    [⟨1, 1, 0⟩, ⟨1, 0, 300⟩, ⟨0, 0, 600⟩, ⟨1, 0, 300⟩, ⟨0, 0, 300⟩, ⟨1, 0, 300⟩, ⟨0, 0, 300⟩] ++
    [⟨1, 0, 300⟩, ⟨0, 0, 300⟩, ⟨1, 0, 300⟩, ⟨0, 0, 300⟩, ⟨1, 0, 300⟩, ⟨0, 0, 300⟩, ⟨1, 0, 300⟩] ++
    [⟨0, 0, 300⟩, ⟨1, 0, 300⟩, ⟨0, 0, 200⟩, ⟨0, 1, 100⟩, ⟨1, 1, 300⟩, ⟨0, 1, 300⟩, ⟨1, 1, 600⟩] ++
    [⟨0, 1, 300⟩, ⟨1, 1, 900⟩] := by decide

/-- V21, the waveform. -/
theorem test_set_autoinc_V21 : waveform 1 1 0 (sendByteOps 0x40 1 1) =
    [⟨1, 1, 0⟩, ⟨1, 0, 300⟩, ⟨0, 0, 600⟩, ⟨1, 0, 300⟩, ⟨0, 0, 300⟩, ⟨1, 0, 300⟩, ⟨0, 0, 300⟩] ++
    [⟨1, 0, 300⟩, ⟨0, 0, 300⟩, ⟨1, 0, 300⟩, ⟨0, 0, 300⟩, ⟨1, 0, 300⟩, ⟨0, 0, 300⟩, ⟨1, 0, 300⟩] ++
    [⟨0, 0, 200⟩, ⟨0, 1, 100⟩, ⟨1, 1, 300⟩, ⟨0, 1, 200⟩, ⟨0, 0, 100⟩, ⟨1, 0, 300⟩, ⟨0, 0, 300⟩] ++
    [⟨1, 0, 600⟩, ⟨0, 0, 300⟩, ⟨1, 0, 300⟩, ⟨1, 1, 600⟩] := by decide

/-- V20: the bits in sending order. -/
theorem test_bits_V20 :
    sdaWrites (dataOps 0x8F) = [1, 1, 1, 1, 0, 0, 0, 1] ∧ sdaWrites (dataOps 0x80) = [0, 0, 0, 0, 0, 0, 0, 1] ∧
      sdaWrites (dataOps 0x40) = [0, 0, 0, 0, 0, 0, 1, 0] ∧
      sdaWrites (dataOps 0xC0) = [0, 0, 0, 0, 0, 0, 1, 1] := by decide

/-- The clocked bits of a frame (V20), read from the trace of its instruction. -/
def sentBits (o : Host.Outcome State Fault Refusal) : Option (List Level) :=
  (after o).map fun s => s.trace.filterMap fun e => match e with
    | .sda v => some v
    | _ => none

/-- V20: START's data write, the bits, and STOP's data write. -/
theorem test_single_byte_commands_V20 :
    sentBits (exec .unblank ready) = some [0, 1, 1, 1, 1, 0, 0, 0, 1, 1] ∧
      sentBits (exec .blank ready) = some [0, 0, 0, 0, 0, 0, 0, 0, 1, 1] ∧
      sentBits (exec .setAutoinc ready) = some [0, 0, 0, 0, 0, 0, 0, 1, 0, 1] ∧
      sentBits (exec .setStartAddr ready) = some [0, 0, 0, 0, 0, 0, 0, 1, 1] := by decide

/-- E7: the brightness byte of level 5 is 0x8C. -/
theorem test_brightness_byte : sentBits (exec (.brightnessByte 4) ready) =
    some [0, 0, 0, 1, 1, 0, 0, 0, 1, 1] := by decide

/-- P2: the bits of 0xDB as a middle byte and of 0x66 as the last one. -/
theorem test_data_bytes :
    sentBits (exec (.data 0xDB) ready) = some [1, 1, 0, 1, 1, 0, 1, 1] ∧
      sentBits (exec (.dataLast 0x66) ready) = some [0, 1, 1, 0, 0, 1, 1, 0, 1] := by decide

/-- V22: every case class of the level, as the port carries it. -/
theorem test_levels_V22 :
    (([(0x80, some 0x80), (0xFB, some 0x80), (0xFF, some 0x80), (0x00, some 0x80), (0x01, some 0x88), (0x02, some 0x89), (0x03, some 0x8A), (0x04, some 0x8B)] ++
      [(0x05, some 0x8C), (0x06, some 0x8D), (0x07, some 0x8E), (0x08, some 0x8F), (0x09, none), (0x0A, none), (0x64, none), (0x7F, none)] : List (BitVec 8 × Option Byte)).all fun x =>
      match brightCommand (levelOf x.1) with
      | .ok b => x.2 = some b
      | .error e => x.2 = none ∧ e = .invalidBrightnessLevel) = true := by decide

/-- E8 and E6. -/
theorem test_bright_select :
    (after (exec (.brightSelect 9) ready)).map (fun s => (s.status, s.rsp_valid, lines s, s.draws)) =
        some (.invalidBrightnessLevel, 1, (1, 1), 2) ∧
      sentBits (exec (.brightSelect 0) ready) = some [0, 0, 0, 0, 0, 0, 0, 0, 1, 1] := by decide

/-- P1, the full micro-op listing. -/
theorem test_init_seq_P1 : initSeqOps =
    [SDA0, W300, SCL0, W300, W200, SDA1, W100, SCL1, W300, SCL0, W200, SDA1] ++
    [W100, SCL1, W300, SCL0, W200, SDA1, W100, SCL1, W300, SCL0, W200, SDA1] ++
    [W100, SCL1, W300, SCL0, W200, SDA0, W100, SCL1, W300, SCL0, W200, SDA0] ++
    [W100, SCL1, W300, SCL0, W200, SDA0, W100, SCL1, W300, SCL0, W200, SDA1] ++
    [W100, SCL1, W300, SCL0, W300, SAMPLE, SCL1, W600, SCL0, W300, SCL1, W300] ++
    [SDA1, W300, W300, SDA0, W300, SCL0, W300, W200, SDA0, W100, SCL1, W300] ++
    [SCL0, W200, SDA0, W100, SCL1, W300, SCL0, W200, SDA0, W100, SCL1, W300] ++
    [SCL0, W200, SDA0, W100, SCL1, W300, SCL0, W200, SDA0, W100, SCL1, W300] ++
    [SCL0, W200, SDA0, W100, SCL1, W300, SCL0, W200, SDA1, W100, SCL1, W300] ++
    [SCL0, W200, SDA0, W100, SCL1, W300, SCL0, W300, SAMPLE, SCL1, W600, SCL0] ++
    [W300, SCL1, W300, SDA1, W300, W300, W10000] := by decide

theorem test_init_seq : (after (exec .initSeq ready)).map (fun s => (lines s, s.draws, s.trace.length)) =
    some ((1, 1), 4, 127) := by decide +kernel

/-- V24: the positions of the samples, of START and of STOP. -/
theorem test_text_frame_V24 :
    ([53, 108, 163, 218, 273].all fun n => (textFrameOps 6 0xDB 0x4F 0x66)[n]? = some .sample) = true ∧
      (textFrameOps 6 0xDB 0x4F 0x66).take 4 = startOps ∧
      ((textFrameOps 6 0xDB 0x4F 0x66).drop 278).take 4 = stopOps ∧
      (textFrameOps 6 0xDB 0x4F 0x66).length = 283 := by decide +kernel


/-- P2: the waveform of frame 1. -/
theorem test_text_frame_waveform_P2 : waveform 1 1 0 (textFrameOps 0x06 0xDB 0x4F 0x66) =
    [⟨1, 1, 0⟩, ⟨1, 0, 300⟩, ⟨0, 0, 600⟩, ⟨1, 0, 300⟩, ⟨0, 0, 300⟩, ⟨1, 0, 300⟩, ⟨0, 0, 300⟩] ++
    [⟨1, 0, 300⟩, ⟨0, 0, 300⟩, ⟨1, 0, 300⟩, ⟨0, 0, 300⟩, ⟨1, 0, 300⟩, ⟨0, 0, 300⟩, ⟨1, 0, 300⟩] ++
    [⟨0, 0, 200⟩, ⟨0, 1, 100⟩, ⟨1, 1, 300⟩, ⟨0, 1, 300⟩, ⟨1, 1, 300⟩, ⟨0, 1, 300⟩, ⟨1, 1, 600⟩] ++
    [⟨0, 1, 800⟩, ⟨0, 0, 100⟩, ⟨1, 0, 300⟩, ⟨0, 0, 200⟩, ⟨0, 1, 100⟩, ⟨1, 1, 300⟩, ⟨0, 1, 300⟩] ++
    [⟨1, 1, 300⟩, ⟨0, 1, 200⟩, ⟨0, 0, 100⟩, ⟨1, 0, 300⟩, ⟨0, 0, 300⟩, ⟨1, 0, 300⟩, ⟨0, 0, 300⟩] ++
    [⟨1, 0, 300⟩, ⟨0, 0, 300⟩, ⟨1, 0, 300⟩, ⟨0, 0, 300⟩, ⟨1, 0, 300⟩, ⟨0, 0, 300⟩, ⟨1, 0, 600⟩] ++
    [⟨0, 0, 800⟩, ⟨0, 1, 100⟩, ⟨1, 1, 300⟩, ⟨0, 1, 300⟩, ⟨1, 1, 300⟩, ⟨0, 1, 200⟩, ⟨0, 0, 100⟩] ++
    [⟨1, 0, 300⟩, ⟨0, 0, 200⟩, ⟨0, 1, 100⟩, ⟨1, 1, 300⟩, ⟨0, 1, 300⟩, ⟨1, 1, 300⟩, ⟨0, 1, 200⟩] ++
    [⟨0, 0, 100⟩, ⟨1, 0, 300⟩, ⟨0, 0, 200⟩, ⟨0, 1, 100⟩, ⟨1, 1, 300⟩, ⟨0, 1, 300⟩, ⟨1, 1, 300⟩] ++
    [⟨0, 1, 300⟩, ⟨1, 1, 600⟩, ⟨0, 1, 900⟩, ⟨1, 1, 300⟩, ⟨0, 1, 300⟩, ⟨1, 1, 300⟩, ⟨0, 1, 300⟩] ++
    [⟨1, 1, 300⟩, ⟨0, 1, 300⟩, ⟨1, 1, 300⟩, ⟨0, 1, 200⟩, ⟨0, 0, 100⟩, ⟨1, 0, 300⟩, ⟨0, 0, 300⟩] ++
    [⟨1, 0, 300⟩, ⟨0, 0, 200⟩, ⟨0, 1, 100⟩, ⟨1, 1, 300⟩, ⟨0, 1, 200⟩, ⟨0, 0, 100⟩, ⟨1, 0, 300⟩] ++
    [⟨0, 0, 300⟩, ⟨1, 0, 600⟩, ⟨0, 0, 900⟩, ⟨1, 0, 300⟩, ⟨0, 0, 200⟩, ⟨0, 1, 100⟩, ⟨1, 1, 300⟩] ++
    [⟨0, 1, 300⟩, ⟨1, 1, 300⟩, ⟨0, 1, 200⟩, ⟨0, 0, 100⟩, ⟨1, 0, 300⟩, ⟨0, 0, 300⟩, ⟨1, 0, 300⟩] ++
    [⟨0, 0, 200⟩, ⟨0, 1, 100⟩, ⟨1, 1, 300⟩, ⟨0, 1, 300⟩, ⟨1, 1, 300⟩, ⟨0, 1, 200⟩, ⟨0, 0, 100⟩] ++
    [⟨1, 0, 300⟩, ⟨0, 0, 300⟩, ⟨1, 0, 600⟩, ⟨0, 0, 300⟩, ⟨1, 0, 300⟩, ⟨1, 1, 600⟩] := by decide

theorem test_text_frame : (after (exec (.textFrame 6 0xDB 0x4F 0x66) ready)).map
    (fun s => (lines s, s.draws, s.trace.length)) = some ((1, 1), 7, 283) := by decide +kernel

/-! ### FontEncoder (V30, V31) -/

/-- V30: all 36 keys. -/
theorem test_patterns_V30 :
    (([(0x30, 0x3F), (0x43, 0x39), (0x6C, 0x30), (0x31, 0x06), (0x63, 0x58), (0x6E, 0x54)] ++
      [(0x32, 0x5B), (0x44, 0x5E), (0x6F, 0x5C), (0x33, 0x4F), (0x64, 0x5E), (0x50, 0x73)] ++
      [(0x34, 0x66), (0x45, 0x79), (0x72, 0x50), (0x35, 0x6D), (0x46, 0x71), (0x74, 0x78)] ++
      [(0x36, 0x7D), (0x48, 0x76), (0x75, 0x1C), (0x37, 0x07), (0x68, 0x74), (0x59, 0x6E)] ++
      [(0x38, 0x7F), (0x49, 0x30), (0x20, 0x00), (0x39, 0x6F), (0x69, 0x10), (0x2D, 0x40)] ++
      [(0x41, 0x77), (0x4A, 0x1E), (0x3D, 0x48), (0x62, 0x7C), (0x4C, 0x38), (0x2E, 0x80)] : List (Byte × Byte)).all fun x =>
      romRead fontRom x.1 = some x.2) = true := by decide

/-- V30: non-keys. -/
theorem test_non_keys_V30 :
    (([0x61, 0x42, 0x65, 0x47, 0x4F, 0x53, 0x5A, 0x3A, 0x5F, 0x2B, 0x00, 0x7F, 0xB0, 0xFF] : List Byte).all
      fun c => romRead fontRom c = none) = true := by decide

theorem test_encode :
    (after (exec (.encode 0x32) ready)).map (·.pat) = some (some 0x5B) ∧
      (after (exec (.encode 0x5A) { ready with pat := some 0x5B })).map (·.pat) = some none := by decide


/-- V30: the rows of the digits and signs. -/
theorem test_font_digits_and_signs :
    (after (exec .font0 ready)).map (·.pat) = some (some 0x3F) ∧
      (after (exec .font1 ready)).map (·.pat) = some (some 0x06) ∧
      (after (exec .font2 ready)).map (·.pat) = some (some 0x5B) ∧
      (after (exec .font3 ready)).map (·.pat) = some (some 0x4F) ∧
      (after (exec .font4 ready)).map (·.pat) = some (some 0x66) ∧
      (after (exec .font5 ready)).map (·.pat) = some (some 0x6D) ∧
      (after (exec .font6 ready)).map (·.pat) = some (some 0x7D) ∧
      (after (exec .font7 ready)).map (·.pat) = some (some 0x07) ∧
      (after (exec .font8 ready)).map (·.pat) = some (some 0x7F) ∧
      (after (exec .font9 ready)).map (·.pat) = some (some 0x6F) ∧
      (after (exec .fontSpace ready)).map (·.pat) = some (some 0x00) ∧
      (after (exec .fontMinus ready)).map (·.pat) = some (some 0x40) ∧
      (after (exec .fontEquals ready)).map (·.pat) = some (some 0x48) ∧
      (after (exec .fontDot ready)).map (·.pat) = some (some 0x80) := by decide

/-- V30: the rows of the upper-case letters. -/
theorem test_font_upper_case :
    (after (exec .font_A ready)).map (·.pat) = some (some 0x77) ∧
      (after (exec .font_C ready)).map (·.pat) = some (some 0x39) ∧
      (after (exec .font_D ready)).map (·.pat) = some (some 0x5E) ∧
      (after (exec .font_E ready)).map (·.pat) = some (some 0x79) ∧
      (after (exec .font_F ready)).map (·.pat) = some (some 0x71) ∧
      (after (exec .font_H ready)).map (·.pat) = some (some 0x76) ∧
      (after (exec .font_I ready)).map (·.pat) = some (some 0x30) ∧
      (after (exec .font_J ready)).map (·.pat) = some (some 0x1E) ∧
      (after (exec .font_L ready)).map (·.pat) = some (some 0x38) ∧
      (after (exec .font_P ready)).map (·.pat) = some (some 0x73) ∧
      (after (exec .font_Y ready)).map (·.pat) = some (some 0x6E) := by decide

/-- V30: the rows of the lower-case letters. -/
theorem test_font_lower_case :
    (after (exec .font_b ready)).map (·.pat) = some (some 0x7C) ∧
      (after (exec .font_c ready)).map (·.pat) = some (some 0x58) ∧
      (after (exec .font_d ready)).map (·.pat) = some (some 0x5E) ∧
      (after (exec .font_h ready)).map (·.pat) = some (some 0x74) ∧
      (after (exec .font_i ready)).map (·.pat) = some (some 0x10) ∧
      (after (exec .font_l ready)).map (·.pat) = some (some 0x30) ∧
      (after (exec .font_n ready)).map (·.pat) = some (some 0x54) ∧
      (after (exec .font_o ready)).map (·.pat) = some (some 0x5C) ∧
      (after (exec .font_r ready)).map (·.pat) = some (some 0x50) ∧
      (after (exec .font_t ready)).map (·.pat) = some (some 0x78) ∧
      (after (exec .font_u ready)).map (·.pat) = some (some 0x1C) := by decide

/-- V31, rows 1 to 8. -/
theorem test_assemble_V31_1 :
    (([([], ⟨⟨0x00, 0x00, 0x00, 0x00⟩, 0, .ok⟩),
      ([0x31, 0x32, 0x33, 0x34], ⟨⟨0x06, 0x5B, 0x4F, 0x66⟩, 4, .ok⟩),
      ([0x31, 0x32, 0x2E, 0x33, 0x34], ⟨⟨0x06, 0xDB, 0x4F, 0x66⟩, 4, .ok⟩),
      ([0x2E, 0x61, 0x62, 0x63], ⟨⟨0x00, 0x00, 0x00, 0x00⟩, 0, .invalidDecimalPointPlacement⟩),
      ([0x5A], ⟨⟨0x00, 0x00, 0x00, 0x00⟩, 0, .unsupportedCharacter⟩),
      ([0x31, 0x32, 0x33, 0x34, 0x5A], ⟨⟨0x06, 0x5B, 0x4F, 0x66⟩, 4, .ok⟩),
      ([0x31, 0x32, 0x33, 0x34, 0x2E], ⟨⟨0x06, 0x5B, 0x4F, 0x66⟩, 4, .ok⟩),
      ([0x31, 0x32, 0x33, 0x34, 0x35, 0x2E, 0x36], ⟨⟨0x06, 0x5B, 0x4F, 0x66⟩, 4, .ok⟩)] :
      List (List Byte × Assembly)).all fun x => assembleText fontRom x.1 = x.2) = true := by decide

/-- V31, rows 9 to 16. -/
theorem test_assemble_V31_2 :
    (([([0x31, 0x32, 0x33, 0x5A], ⟨⟨0x06, 0x5B, 0x4F, 0x00⟩, 3, .unsupportedCharacter⟩),
      ([0x31, 0x2E, 0x2E, 0x32], ⟨⟨0x86, 0x5B, 0x00, 0x00⟩, 2, .ok⟩),
      ([0x31, 0x2E, 0x2E, 0x2E, 0x2E], ⟨⟨0x86, 0x00, 0x00, 0x00⟩, 1, .ok⟩),
      ([0x2E, 0x2E, 0x2E, 0x2E], ⟨⟨0x00, 0x00, 0x00, 0x00⟩, 0, .invalidDecimalPointPlacement⟩),
      ([0x31, 0x32, 0x3A, 0x33, 0x34], ⟨⟨0x06, 0x5B, 0x00, 0x00⟩, 2, .unsupportedCharacter⟩),
      ([0x2D, 0x35, 0x2E, 0x35, 0x43], ⟨⟨0x40, 0xED, 0x6D, 0x39⟩, 4, .ok⟩),
      ([0x20, 0x20, 0x32, 0x30], ⟨⟨0x00, 0x00, 0x5B, 0x3F⟩, 4, .ok⟩),
      ([0x20, 0x39, 0x2E, 0x35, 0x3D], ⟨⟨0x00, 0xEF, 0x6D, 0x48⟩, 4, .ok⟩)] :
      List (List Byte × Assembly)).all fun x => assembleText fontRom x.1 = x.2) = true := by decide

/-- V31, rows 17 to 24. -/
theorem test_assemble_V31_3 :
    (([([0x31, 0x2E, 0x32, 0x2E, 0x33, 0x2E, 0x34, 0x2E], ⟨⟨0x86, 0xDB, 0xCF, 0x66⟩, 4, .ok⟩),
      ([0x30, 0x2E, 0x30, 0x2E, 0x30, 0x2E, 0x30], ⟨⟨0xBF, 0xBF, 0xBF, 0x3F⟩, 4, .ok⟩),
      ([0x41, 0x62, 0x2E, 0x43, 0x64], ⟨⟨0x77, 0xFC, 0x39, 0x5E⟩, 4, .ok⟩),
      ([0x68, 0x49], ⟨⟨0x74, 0x30, 0x00, 0x00⟩, 2, .ok⟩),
      ([0x31, 0x32, 0x2E], ⟨⟨0x06, 0xDB, 0x00, 0x00⟩, 2, .ok⟩),
      ([0x48, 0x2E], ⟨⟨0xF6, 0x00, 0x00, 0x00⟩, 1, .ok⟩),
      ([0x61], ⟨⟨0x00, 0x00, 0x00, 0x00⟩, 0, .unsupportedCharacter⟩),
      ([0x38, 0x38, 0x38, 0x38, 0x38], ⟨⟨0x7F, 0x7F, 0x7F, 0x7F⟩, 4, .ok⟩)] :
      List (List Byte × Assembly)).all fun x => assembleText fontRom x.1 = x.2) = true := by decide

/-- V31, rows 25 to 31. -/
theorem test_assemble_V31_4 :
    (([([0x2E, 0x5A], ⟨⟨0x00, 0x00, 0x00, 0x00⟩, 0, .invalidDecimalPointPlacement⟩),
      ([0x5A, 0x2E], ⟨⟨0x00, 0x00, 0x00, 0x00⟩, 0, .unsupportedCharacter⟩),
      ([0x31, 0x5A, 0x2E], ⟨⟨0x06, 0x00, 0x00, 0x00⟩, 1, .unsupportedCharacter⟩),
      ([0x44], ⟨⟨0x5E, 0x00, 0x00, 0x00⟩, 1, .ok⟩),
      ([0x64], ⟨⟨0x5E, 0x00, 0x00, 0x00⟩, 1, .ok⟩),
      ([0x3D, 0x2D, 0x3D, 0x20], ⟨⟨0x48, 0x40, 0x48, 0x00⟩, 4, .ok⟩),
      ([0x31, 0x20, 0x2E, 0x32], ⟨⟨0x06, 0x80, 0x5B, 0x00⟩, 3, .ok⟩)] :
      List (List Byte × Assembly)).all fun x => assembleText fontRom x.1 = x.2) = true := by decide

/-! The column "seg" of the default table (R152): the segments each character lights. -/

def segColumnDigits : List (Byte × List DigitSegment) :=
  [(0x20, []), (0x2D, [.g]), (0x2E, [.decimalPoint]), (0x30, [.a, .b, .c, .d, .e, .f]), (0x31, [.b, .c]),
   (0x32, [.a, .b, .d, .e, .g]), (0x33, [.a, .b, .c, .d, .g]), (0x34, [.b, .c, .f, .g]),
   (0x35, [.a, .c, .d, .f, .g]), (0x36, [.a, .c, .d, .e, .f, .g]), (0x37, [.a, .b, .c]),
   (0x38, [.a, .b, .c, .d, .e, .f, .g]), (0x39, [.a, .b, .c, .d, .f, .g]), (0x3D, [.d, .g])]

def segColumnUpper : List (Byte × List DigitSegment) :=
  [(0x41, [.a, .b, .c, .e, .f, .g]), (0x43, [.a, .d, .e, .f]), (0x44, [.b, .c, .d, .e, .g]),
   (0x45, [.a, .d, .e, .f, .g]), (0x46, [.a, .e, .f, .g]), (0x48, [.b, .c, .e, .f, .g]), (0x49, [.e, .f]),
   (0x4A, [.b, .c, .d, .e]), (0x4C, [.d, .e, .f]), (0x50, [.a, .b, .e, .f, .g]), (0x59, [.b, .c, .d, .f, .g])]

def segColumnLower : List (Byte × List DigitSegment) :=
  [(0x62, [.c, .d, .e, .f, .g]), (0x63, [.d, .e, .g]), (0x64, [.b, .c, .d, .e, .g]), (0x68, [.c, .e, .f, .g]),
   (0x69, [.e]), (0x6C, [.e, .f]), (0x6E, [.c, .e, .g]), (0x6F, [.c, .d, .e, .g]), (0x72, [.e, .g]),
   (0x74, [.d, .e, .f, .g]), (0x75, [.c, .d, .e])]

/-- R82, R152: the patterns of the default ROM light the segments the table lists. -/
theorem test_patterns_light_their_segments :
    (segColumnDigits ++ segColumnUpper ++ segColumnLower).map Prod.fst = fontKeys ∧
      ((segColumnDigits ++ segColumnUpper ++ segColumnLower).all fun x =>
        DigitSegment.all.filter (lights ((romRead fontRom x.1).getD 0)) = x.2) = true := by decide

/-- R60, R61: "12.34" on the display (P2), while it is on and while it is not, and the empty text. -/
theorem test_display_of_a_text :
    DigitSegment.all.filter (Device.lit ⟨true, 4, true, 4, ⟨0x06, 0xDB, 0x4F, 0x66⟩⟩ 1) =
        [.a, .b, .d, .e, .g, .decimalPoint] ∧
      Device.blanked ⟨true, 4, true, 4, ⟨0x06, 0xDB, 0x4F, 0x66⟩⟩ = false ∧
      Device.blanked ⟨false, 4, true, 4, ⟨0x06, 0xDB, 0x4F, 0x66⟩⟩ = true ∧
      Device.blanked ⟨true, 4, true, 4, ⟨0, 0, 0, 0⟩⟩ = true := by decide

/-- A state whose ROM draws the 7 with segment f, a variant the spec names (R152). -/
def otherRom : State := { ready with rom := fontRom.map fun c => if c.1 = 0x37 then (c.1, 0x27) else c }

/-- R6, R152: FONT_ROM is a parameter, and R153 admits this one. -/
theorem test_rom_is_a_parameter :
    fontRomWf otherRom.rom = true ∧
      (after (exec .font7 otherRom)).map (·.pat) = some (some 0x27) ∧
      (after (exec (.setText [0x37, 0x2E]) otherRom)).map (·.buf) = some ⟨0xA7, 0, 0, 0⟩ := by decide

/-- E4: the buffer and the error are written, no line moves. -/
theorem test_assemble_error :
    (after (exec (.assemble textDotAbc) { ready with buf := ⟨1, 2, 3, 4⟩ })).map
      (fun s => (s.buf, s.status, s.rsp_valid, lines s)) =
    some (⟨0, 0, 0, 0⟩, .invalidDecimalPointPlacement, 1, (1, 1)) := by decide

/-! ### Driver sequencer (V40 to V51) -/

theorem test_init : (after (exec .init (sending 7))).map (fun s => (s.drv_state, s.upc, s.prog.length)) =
    some (.uninit, 0, 127) := by decide +kernel

/-- V40 and V50: reset out of a running program. -/
theorem test_reset_V40 : (after (step (withRst (sending 40)))).map
    (fun s => (s.drv_state, s.status, s.ack, lines s, s.upc)) = some (.uninit, .ok, 1, (1, 1), 0) ∧
    (after (step (withRst (sending 40)))).map (fun s => decide (s.prog = initProg)) = some true := by decide

/-- V41, its last step. -/
theorem test_init_done_V41 : (after (step { State.reset with upc := 127 })).map
    (fun s => (s.drv_state, s.status, lines s, s.rsp_valid)) = some (.idle, .ok, (1, 1), 0) := by decide +kernel

/-- V42: a command held during initialization is not looked at. -/
theorem test_command_during_init_V42 :
    (after (step { State.reset with upc := 40, inputs := [⟨0, 1, 0, 5, [], 1⟩] })).map
      (fun s => (s.drv_state, s.upc, cmdReady s)) = some (.uninit, 41, 0) := by decide

/-- V43, the accept step. -/
theorem test_set_brightness_V43 : (after (step (offering 0 5 []))).map
    (fun s => (s.drv_state, s.upc, decide (s.prog = sendByteOps 0x8C 1 1), s.level_l)) =
      some (.transmitting, 0, true, 5) := by decide

/-- V43, the completion step. -/
theorem test_done_V43 : (after (step (sending 63))).map (fun s => (s.drv_state, s.status, s.rsp_valid)) =
    some (.idle, .ok, 1) := by decide

/-- V44. -/
theorem test_set_brightness_V44 : (after (step (offering 0 9 []))).map
    (fun s => (s.drv_state, s.status, s.rsp_valid, lines s, s.upc)) =
      some (.idle, .invalidBrightnessLevel, 1, (1, 1), 127) := by decide

/-- V46, the accept step. -/
theorem test_set_text_V46 : (after (step (offering 1 0 text1234))).map
    (fun s => (s.drv_state, s.buf, s.cursor, decide (s.prog = textProg 0x06 0xDB 0x4F 0x66))) =
      some (.transmitting, ⟨0x06, 0xDB, 0x4F, 0x66⟩, 4, true) := by decide +kernel

/-- V48: "12Z". -/
theorem test_set_text_V48 : (after (step (offering 1 0 [0x31, 0x32, 0x5A]))).map
    (fun s => (s.drv_state, s.status, s.buf, s.cursor, s.rsp_valid, s.upc)) =
      some (.idle, .unsupportedCharacter, ⟨0x06, 0x5B, 0, 0⟩, 2, 1, 127) := by decide

/-- V49: a command offered during a transmission stays with the host. -/
theorem test_command_while_busy_V49 :
    (after (step { sending 40 with inputs := [⟨0, 1, 0, 3, [], 1⟩] })).map (fun s => (s.upc, s.drv_state, s.level_l)) =
      some (41, .transmitting, 0) := by decide

/-- V51. -/
theorem test_idle_V51 : step ready = .next ready := rfl

/-- R37: a response lasts one step. -/
theorem test_response_is_one_pulse : (after (step { ready with rsp_valid := 1 })).map (·.rsp_valid) = some 0 := by
  decide

/-- The first step after reset with a word placed (log 20). -/
theorem test_placed_words :
    (after (step (State.reset.withFetchWord 16 0b101))).map (fun s => (s.drv_state, s.prog.length)) =
        some (.transmitting, 63) ∧
      sentBits (step (State.reset.withFetchWord 8 0x40)) = some [0, 0, 0, 0, 0, 0, 0, 1, 0, 1] ∧
      refusesEncoding (step (State.reset.withFetchWord 24 0)) = true := by decide

/-- R84, R85: the codes on the ports. -/
theorem test_ports : (stateO ready, cmdReady ready, busy ready, rspStatus ready) = (0b01, 1, 0, 0b00) ∧
    stateO (sending 0) = 0b10 ∧ stateO State.reset = 0b00 := by decide

/-- R33: the counters at the positions the reading of V10 names. -/
theorem test_counters_V10 :
    ((brightShape 0x8C).regsAt 51).map (fun r => (r.phase, r.bit_ix, r.sub)) = some (.bit, 7, 5) ∧
      ((brightShape 0x8C).regsAt 53).map (fun r => (r.phase, r.sub)) = some (.ack, 1) ∧
      ((brightShape 0x8C).regsAt 62).map (·.phase) = some .trail ∧ (brightShape 0x8C).opAt 63 = none := by decide

/-! ### The font ROM as memory -/

theorem test_rom_is_canonical : Memory.wf fontRom = true ∧ fontRom.length = 36 := by decide

/-! ### Witnesses for the hypotheses of the statements -/

/-- O2, and the first clause of O3 and O42. -/
theorem witness_ResetWinsOverEveryStep : (portsNow (withRst (sending 40))).rst = 1 := by decide

/-- O3, MICRO at the first and at the last micro-op. -/
theorem witness_StepRelation_micro :
    (portsNow (sending 62)).rst = 0 ∧ (sending 62).request = none ∧ (sending 62).drv_state ≠ .idle ∧
      (sending 62).prog[(sending 62).upc.toNat]? = some (.wait 300) ∧
      State.reset.prog[State.reset.upc.toNat]? = some (.sda 0) ∧ State.reset.drv_state ≠ .idle := by decide

/-- O3, DONE in TRANSMITTING and in UNINIT. -/
theorem witness_StepRelation_done :
    (sending 63).drv_state = .transmitting ∧ (sending 63).upc.toNat = (sending 63).prog.length ∧
      State.reset.drv_state = .uninit ∧
      ({ State.reset with upc := 127 } : State).upc.toNat = State.reset.prog.length := by decide +kernel

/-- O3, ACCEPT of the two commands. -/
theorem witness_StepRelation_accept :
    (offering 0 9 []).drv_state = .idle ∧ (offering 0 9 []).request = none ∧
      (portsNow (offering 0 9 [])).rst = 0 ∧ (portsNow (offering 0 9 [])).cmd_valid = 1 ∧
      (portsNow (offering 0 9 [])).cmd_op = 0 ∧ (portsNow (offering 1 0 text1234)).cmd_valid = 1 ∧
      (portsNow (offering 1 0 text1234)).cmd_op = 1 := by decide

/-- O3, IDLE: no command in IDLE, and an index beyond the program. -/
theorem witness_StepRelation_idle :
    ready.drv_state = .idle ∧ (portsNow ready).cmd_valid = 0 ∧ (sending 64).drv_state ≠ .idle ∧
      (sending 64).prog.length < (sending 64).upc.toNat := by decide

/-- O4, both clauses. -/
theorem witness_StepRunsThePlacedWord :
    decodeTableWord 8 0b01000000 = some .setAutoinc ∧ decodeTableWord 24 0 = none := by decide

/-- O5. -/
theorem witness_RequestIsDecodedAndExecuted :
    (portsNow { ready with request := some (.p 0b1110001100) }).rst = 0 ∧
      ({ ready with request := some (.p 0b1110001100) } : State).request = some (.p 0b1110001100) := by decide

/-- O20, each clause at the ends of its range. -/
theorem witness_BrightnessSelectionIsThreeWay :
    (-128 : Int) ≤ 0 ∧ (0 : Int) ≤ 0 ∧ (1 : Int) ≤ 1 ∧ (1 : Int) ≤ 8 ∧ (8 : Int) ≤ 8 ∧ (9 : Int) ≤ 9 := by decide

/-- O23, at level 1 and at level 8. -/
theorem witness_BrightnessByteOfALevel : (1 : Int) ≤ 1 ∧ (1 : Int) ≤ 8 ∧ (8 : Int) ≤ 8 := by decide

/-- O28: the default ROM, the decimal point and a digit. -/
theorem witness_EveryAdmittedRomMeetsItsRequirements :
    fontRomWf fontRom = true ∧ fontRomRequirements romOfTwoDs = true ∧ romRead fontRom 0x2E = some 0x80 ∧ romRead fontRom 0x30 = some 0x3F ∧
      (0x30 : Byte) ≠ Config.dotChar := by decide

/-- O29, both clauses. -/
theorem witness_AssembleWritesBufferAndCursor :
    (assembleText ready.rom text1234).code = .ok ∧ (assembleText ready.rom textDotAbc).code ≠ .ok := by decide

/-- Four groups, the last with two dots. -/
def fourGroups : List (Byte × Nat) := [(0x31, 0), (0x32, 1), (0x33, 0), (0x34, 2)]

/-- O30: four groups with a tail, and no group without one. -/
theorem witness_TextInGroupsAssembles :
    (∀ g ∈ fourGroups, g.1 ≠ Config.dotChar ∧ (romRead fontRom g.1).isSome) ∧ fourGroups.length ≤ 4 ∧
      fourGroups.length = 4 ∧ groupsText fourGroups ++ [0x5A] = text1234 ++ [0x2E, 0x2E, 0x5A] ∧
      ([] : List (Byte × Nat)).length ≤ 4 := by decide

/-- O31: the two errors, at the beginning and at the fourth character. -/
theorem witness_FirstOffendingCharacterIsReported :
    (assembleText fontRom textDotAbc).code = .invalidDecimalPointPlacement ∧
      (assembleText fontRom [0x31, 0x32, 0x33, 0x5A]).code = .unsupportedCharacter ∧
      textDotAbc.head? = some Config.dotChar ∧
      [0x31, 0x32, 0x33, 0x5A] = groupsText [(0x31, 0), (0x32, 0), (0x33, 0)] ++ [0x5A] := by decide

/-- O32. -/
theorem witness_LastDigitNeverCarriesADot :
    fontRomRequirements fontRom = true ∧ fontRomRequirements romOfTwoDs = true := by decide

/-- O33, at the third position and at the second, which has a dot. -/
theorem witness_DotBitShowsExactlyTheDots :
    fontRomRequirements fontRom = true ∧ (∀ g ∈ fourGroups, g.1 ≠ Config.dotChar ∧ (romRead fontRom g.1).isSome) ∧
      fourGroups.length ≤ 4 ∧ fourGroups[2]? = some (0x33, 0) ∧ fourGroups[1]? = some (0x32, 1) := by decide

/-- O35, each clause at the ends of its range: 0, -128, 1 and 8. -/
theorem witness_SetBrightnessBeginsItsProgram :
    ready.drv_state = .idle ∧ (0x00 : BitVec 8).toInt ≤ 0 ∧ (0x80 : BitVec 8).toInt ≤ 0 ∧
      1 ≤ (0x01 : BitVec 8).toInt ∧ (0x01 : BitVec 8).toInt ≤ 8 ∧ 1 ≤ (0x08 : BitVec 8).toInt ∧
      (0x08 : BitVec 8).toInt ≤ 8 := by decide

/-- O36. -/
theorem witness_SetTextBeginsItsProgram :
    ready.drv_state = .idle ∧ (assembleText ready.rom text1234).code = .ok ∧ (assembleText ready.rom []).code = .ok := by
  decide

/-- O37, both clauses: levels 9 and 127, and a text. -/
theorem witness_FailedCommandHasNoBusActivity :
    ready.drv_state = .idle ∧ 9 ≤ (0x09 : BitVec 8).toInt ∧ 9 ≤ (0x7F : BitVec 8).toInt ∧
      (assembleText ready.rom [0x5A]).code ≠ .ok := by decide

/-- O38, in both busy states. -/
theorem witness_CommandOfferedWhileBusyIsIgnored :
    (sending 0).drv_state ≠ .idle ∧ State.reset.drv_state ≠ .idle ∧ Inputs.quiet.rst = 0 ∧
      (⟨0, 1, 0, 5, [], 1⟩ : Inputs).rst = 0 := by decide

/-- O40 in IDLE, with a command on the port. -/
theorem witness_invariant_idle (op : BitVec 1) (level : BitVec 8) (text : List Byte) :
    Inv (offering op level text) where
  cursor_le := by show 0 ≤ 4; simp
  upc_le := by show 127 ≤ initProg.length; simp
  idle_lines := fun _ => ⟨rfl, rfl⟩
  idle_done := fun _ => by show 127 = initProg.length; simp
  uninit_prog := fun h => nomatch h
  prog_kind := .inl rfl
  ends_idle := by
    show endLevels (initProg.drop 127) (1, 1) = (1, 1)
    rw [List.drop_of_length_le (by simp)]; rfl
  last_digit := by show (0 : Byte).msb = false; decide
  not_counting := rfl
  rom_wf := by show fontRomWf fontRom = true; decide
  no_request := rfl

/-- O40 in a transmission. -/
theorem witness_invariant_transmitting : Inv (sending 0) where
  cursor_le := by show 0 ≤ 4; simp
  upc_le := by show 0 ≤ (brightProg 0x8C).length; simp
  idle_lines := fun h => nomatch h
  idle_done := fun h => nomatch h
  uninit_prog := fun h => nomatch h
  prog_kind := .inr (.inl ⟨0x8C, .inr (by decide), rfl⟩)
  ends_idle := brightProg_endLevels 0x8C (1, 1)
  last_digit := by show (0 : Byte).msb = false; decide
  not_counting := rfl
  rom_wf := by show fontRomWf fontRom = true; decide
  no_request := rfl

/-- O41, its second clause. -/
theorem witness_EveryOperationCompletes : (sending 0).request = none := rfl

/-- O42 and O43: steps in each driver state, and what they answer. -/
theorem witness_DriverStateTransitions :
    step (sending 63) = .next { sending 63 with
      drv_state := .idle, status := .ok, rsp_valid := 1, trace := [.response .ok] } ∧
    step { State.reset with upc := 127 } = .next { State.reset with upc := 127, drv_state := .idle } ∧
    step ready = .next ready ∧ (sending 63).request = none ∧ (portsNow (sending 63)).rst = 0 ∧
    (sending 63).drv_state = .transmitting ∧ ready.drv_state = .idle :=
  ⟨by simp [step_of_quiet, sending, ready, sequencerStep, nextOp, portsNow, Inputs.quiet, beginStep, State.reset,
      betweenPrograms, completeCommand],
    by simp [step_of_quiet, sequencerStep, nextOp, portsNow, Inputs.quiet, beginStep, State.reset,
      betweenPrograms, completeInit], rfl, rfl, rfl, rfl, rfl⟩

/-- O43: the response of a failed validation. -/
theorem witness_EachResponseIsOnePulse :
    step (offering 0 9 []) = .next { ready with
      op_l := 0, level_l := 9, status := .invalidBrightnessLevel, rsp_valid := 1,
      trace := [.acceptBrightness 9, .response .invalidBrightnessLevel] } ∧
    (offering 0 9 []).request = none ∧ (portsNow (offering 0 9 [])).rst = 0 ∧
    (offering 0 9 []).drv_state = .idle := ⟨rfl, rfl, rfl, rfl⟩

/-- O43: the response of a text that does not assemble, for both of its errors. -/
theorem witness_EachResponseIsOnePulse_text :
    (after (step (offering 1 0 textDotAbc))).map (fun s => (s.rsp_valid, s.status)) =
        some (1, .invalidDecimalPointPlacement) ∧
      (after (step (offering 1 0 [0x5A]))).map (fun s => (s.rsp_valid, s.status)) =
        some (1, .unsupportedCharacter) := by decide

/-- O44. -/
theorem witness_LinesMoveOnlyInAProgram :
    ready.request = none ∧ (portsNow ready).rst = 0 ∧ ready.drv_state = .idle ∧ step ready = .next ready :=
  ⟨rfl, rfl, rfl, rfl⟩

/-- R24: a device that holds the clock low does not hold the CORE up. The SCL(1) of the ack pulse runs, and the
output is 1. -/
theorem test_clock_held_low :
    (after (step { sending 54 with inputs := [⟨0, 0, 0, 0, [], 0⟩] })).map (fun s => (s.scl_o, s.upc)) =
      some (1, 55) := by decide

/-- O45: two states before a SAMPLE that differ in ack, draws and a value sampled before. -/
theorem witness_TheAckIsNeverActedOn :
    ({ sending 53 with trace := [.sample 0] } : State).request = none ∧
    SameButAck { sending 53 with trace := [.sample 0] }
      { sending 53 with ack := 1, draws := 7, trace := [.sample 1] } :=
  ⟨rfl, rfl, rfl⟩

/-- O46, for one micro-op and for the whole program. -/
theorem witness_StepsExecuteTheProgramInOrder :
    (sending 0).request = none ∧ (sending 0).drv_state ≠ .idle ∧ (sending 0).prog.length < 512 ∧
      (sending 0).upc.toNat + 1 ≤ (sending 0).prog.length ∧
      (sending 0).upc.toNat + 63 ≤ (sending 0).prog.length ∧
      (∀ p ∈ (sending 0).inputs.take 63, p.rst = 0) := by decide

/-- The state after reset, with other latches and with a command held for all the 128 steps. -/
def afterReset : State :=
  { State.reset with level_l := 5, text_l := text1234, inputs := List.replicate 128 ⟨0, 1, 0, 5, [], 1⟩ }

/-- O47: no input at all, and a command held. -/
theorem witness_InitializationRunsToIdle :
    AtReset State.reset ∧ State.reset.request = none ∧ NoReset 128 State.reset ∧
      AtReset afterReset ∧ afterReset.request = none ∧ NoReset 128 afterReset := by
  refine ⟨⟨rfl, rfl, rfl, rfl, rfl, rfl, rfl, rfl, rfl, rfl, rfl⟩, rfl, ?_,
    ⟨rfl, rfl, rfl, rfl, rfl, rfl, rfl, rfl, rfl, rfl, rfl⟩, rfl, ?_⟩
  · intro p hp
    cases List.mem_of_mem_take hp
  · intro p hp
    rw [List.eq_of_mem_replicate (List.mem_of_mem_take hp)]

/-- O48, at levels 0, 5 and 8. -/
theorem witness_SetBrightnessRunsToCompletion :
    Inv (offering 0 5 []) ∧ (offering 0 5 []).drv_state = .idle ∧ Offers (offering 0 5 []) 0 5 [] ∧
      NoReset 65 (offering 0 5 []) ∧ (5 : BitVec 8).toInt ≤ 8 ∧
      (0x8C : Byte) =
        (if (5 : BitVec 8).toInt ≤ 0 then 0x80 else 0x88 ||| BitVec.ofInt 8 ((5 : BitVec 8).toInt - 1)) ∧
      (0x80 : Byte) =
        (if (0 : BitVec 8).toInt ≤ 0 then 0x80 else 0x88 ||| BitVec.ofInt 8 ((0 : BitVec 8).toInt - 1)) ∧
      (0x8F : Byte) =
        (if (8 : BitVec 8).toInt ≤ 0 then 0x80 else 0x88 ||| BitVec.ofInt 8 ((8 : BitVec 8).toInt - 1)) := by
  refine ⟨witness_invariant_idle 0 5 [], rfl, ⟨rfl, rfl, rfl, rfl, rfl⟩, ?_, by decide, by decide, by decide,
    by decide⟩
  intro p hp
  cases List.mem_of_mem_take hp with
  | head => rfl
  | tail _ h => cases h

/-- O49, for "12.34". -/
theorem witness_SetTextRunsToCompletion :
    Inv (offering 1 0 text1234) ∧ (offering 1 0 text1234).drv_state = .idle ∧
      Offers (offering 1 0 text1234) 1 0 text1234 ∧ NoReset 285 (offering 1 0 text1234) ∧
      (assembleText (offering 1 0 text1234).rom text1234).code = .ok := by
  refine ⟨witness_invariant_idle 1 0 text1234, rfl, ⟨rfl, rfl, rfl, rfl, rfl⟩, ?_, by decide⟩
  intro p hp
  cases List.mem_of_mem_take hp with
  | head => rfl
  | tail _ h => cases h

/-- A device before initialization. -/
def device : Device := ⟨false, 0, false, 0, ⟨1, 2, 3, 4⟩⟩

/-- O51, its last clause: the three kinds of program. -/
theorem witness_ProgramsSendTheFramesOfTheSpec : Inv (offering 0 5 []) ∧ Inv (sending 0) :=
  ⟨witness_invariant_idle 0 5 [], witness_invariant_transmitting⟩

/-- O52, the clauses that assume nothing by name, at a device in auto-increment mode. -/
theorem witness_DeviceShowsTheTextOfTheFrame :
    deviceAfter ⟨false, false⟩ [[0x40]] device { device with autoInc := true, pointer := 9 } ∧
      (0x66 : Byte).msb = false ∧
      deviceAfter ⟨false, false⟩ [[0xC0, 0x06, 0xDB, 0x4F, 0x66]] { device with autoInc := true }
        { device with autoInc := true, pointer := 4, digits := ⟨0x06, 0xDB, 0x4F, 0x66⟩ } ∧
      ([0x06, 0xDB, 0x4F, 0x66] : List Byte)[0]? = some 0x06 ∧
      ([0x06, 0xDB, 0x4F, 0x66] : List Byte)[3]? = some 0x66 ∧
      deviceAfter ⟨false, false⟩ [[0xC0, 0, 0, 0, 0]] { device with displayOn := true, autoInc := true }
        { device with displayOn := true, autoInc := true, pointer := 4, digits := ⟨0, 0, 0, 0⟩ } := by
  refine ⟨?_, by decide, ?_, rfl, rfl, ?_⟩ <;> simp [deviceAfter, frameEffect, device, stopHasEdge]

/-- O52, the clauses under the assumption that the end of every frame is seen: brightness 1 and 8. -/
theorem witness_DeviceShowsTheTextOfTheFrame_endSeen :
    deviceAfter ⟨true, false⟩ [[0x8F], [0x40]] device { device with displayOn := true, autoInc := true } ∧
      deviceAfter ⟨true, false⟩ [[0x8F], [0x40], [0xC0, 0, 0, 0, 0]] device
        { device with displayOn := true, autoInc := true, digits := ⟨0, 0, 0, 0⟩ } ∧
      deviceAfter ⟨true, false⟩ [[0x80]] device device ∧ (0 : BitVec 3) ≠ 7 ∧
      deviceAfter ⟨true, false⟩ [[brightByte 0]] device { device with displayOn := true } ∧
      deviceAfter ⟨true, true⟩ [[brightByte 7]] device { device with displayOn := true, brightness := 7 } := by
  refine ⟨⟨{ device with displayOn := true }, ?_, ⟨_, ?_, rfl⟩⟩,
    ⟨{ device with displayOn := true }, ?_,
      ⟨{ device with displayOn := true, autoInc := true }, ?_, ⟨_, ?_, rfl⟩⟩⟩,
    ⟨_, ?_, rfl⟩, by decide, ⟨_, ?_, rfl⟩, ⟨_, ?_, rfl⟩⟩ <;> simp [frameEffect, device, brightByte]

/-- O53: a word one row has, and words two rows share. -/
theorem witness_DecodeOfEncodeIsTheInstruction :
    encode .blank = some (.w 0x80) ∧ encode (.brightnessByte 7) = some (.w 0x8F) ∧
      encode .unblank = some (.w 0x8F) ∧ encode (.encode 0x30) = encode .font0 := by decide

/-- O55, its second clause: the bytes next to the map's ends. -/
theorem witness_CommandBytesAreExactlyTheMap :
    decode (.w 0x87) = .error (.notACommandByte 0x87) ∧ decode (.w 0x90) = .error (.notACommandByte 0x90) := by
  decide

/-- O57: an operation that reads the ROM, a step, and a reset, at a ROM that is not the default. -/
theorem witness_NoStepWritesTheFontRom :
    exec (.encode 0x37) otherRom = .next { otherRom with pat := some 0x27 } ∧
      step otherRom = .next otherRom ∧
      (after (step (withRst otherRom))).map (fun s => romRead s.rom 0x37) = some (some 0x27) :=
  ⟨rfl, rfl, rfl⟩

/-- O58: in IDLE and after START. -/
theorem witness_EveryStepKeepsTheTraceAtTheOutputs :
    endLevels (microOps ready.trace) (1, 1) = lines ready ∧ step ready = .next ready ∧
      (after (exec .start ready)).map (fun s => decide (endLevels (microOps s.trace) (1, 1) = lines s)) =
        some true := ⟨rfl, rfl, by decide⟩

/-- O60: a ROM with another pattern for `D` and `d`, alone and in an IDLE state. -/
theorem witness_UpperAndLowerDHaveOnePattern :
    fontRomWf romOfOtherD = true ∧ romRead romOfOtherD 0x44 = some 0x5C ∧
      Inv { offering 1 0 [0x44] with rom := romOfOtherD } :=
  have h := witness_invariant_idle 1 0 [0x44]
  ⟨by decide, by decide, h.cursor_le, h.upc_le, h.idle_lines, h.idle_done, h.uninit_prog, h.prog_kind,
    h.ends_idle, h.last_digit, h.not_counting, by show fontRomWf romOfOtherD = true; decide, h.no_request⟩

end Sys2Proof.Tests
end

namespace Sys2Proof.Proofs

open Sys2Proof.Machine

/-- R41 for RESET, whatever state it abandons. -/
theorem atReset_resetState (s : State) : AtReset (resetState s) where
  scl_o := rfl
  sda_o := rfl
  drv_state := rfl
  status := rfl
  ack := rfl
  buf := rfl
  cursor := rfl
  prog := rfl
  upc := rfl
  wcnt := rfl
  rsp_valid := rfl

/-- The reset state abandons nothing by a further RESET. -/
theorem resetState_reset : resetState State.reset = State.reset := rfl

theorem atReset_reset : AtReset State.reset := resetState_reset ▸ atReset_resetState State.reset

/-- Settles O1: R41's table, read off `AtReset` field by field. -/
theorem resetStateHoldsTheTableOfResetValues : Obligations.ResetStateHoldsTheTableOfResetValues := by
  obtain ⟨scl_o, sda_o, drv_state, status, ack, buf, cursor, prog, upc, wcnt, rsp_valid⟩ := atReset_reset
  exact ⟨scl_o, sda_o, drv_state, status, ack, buf, cursor, prog, upc, wcnt, rsp_valid⟩

end Sys2Proof.Proofs

namespace Sys2Proof.Proofs

open Sys2Proof.Machine

/-! ### The brightness byte (R76, R140) -/

theorem brightByte_eq_or (b : BitVec 3) : brightByte b = 0x88 ||| b.setWidth 8 := by
  rw [brightByte, BitVec.append_def, BitVec.setWidth'_eq]
  rfl

/-- R76's reason: no bit of `b` meets a bit of 0x88. -/
theorem brightBase_and_setWidth (b : BitVec 3) : (0x88 : Byte) &&& b.setWidth 8 = 0 := by
  revert b
  decide

theorem brightByte_eq_add (b : BitVec 3) : brightByte b = 0x88 + b.setWidth 8 :=
  (brightByte_eq_or b).trans (BitVec.add_eq_or_of_and_eq_zero _ _ (brightBase_and_setWidth b)).symm

theorem brightByte_high (b : BitVec 3) : (brightByte b).extractLsb' 3 5 = 0b10001 :=
  BitVec.extractLsb'_append_eq_left

theorem brightByte_low (b : BitVec 3) : (brightByte b).extractLsb' 0 3 = b :=
  BitVec.extractLsb'_append_eq_right

/-- A number that fits three bits is the same byte by way of three bits. -/
theorem setWidth_ofInt_three {n : Int} (h0 : 0 ≤ n) (h8 : n < 8) :
    (BitVec.ofInt 3 n).setWidth 8 = BitVec.ofInt 8 n := by
  apply BitVec.eq_of_toNat_eq
  simp only [BitVec.toNat_setWidth, BitVec.toNat_ofInt]
  omega

theorem or_ofInt_eq_brightByte {n : Int} (h0 : 0 ≤ n) (h8 : n < 8) :
    0x88 ||| BitVec.ofInt 8 n = brightByte (BitVec.ofInt 3 n) := by
  rw [brightByte_eq_or, setWidth_ofInt_three h0 h8]

theorem brightCommand_eq_brightByte {level : Int} (h1 : 1 ≤ level) (h8 : level ≤ 8) :
    brightCommand level = .ok (brightByte (BitVec.ofInt 3 (level - 1))) := by
  rw [brightCommand_level h1 h8, or_ofInt_eq_brightByte (by omega) (by omega)]

/-- Settles O23: for levels 1 to 8 the wire byte is `brightByte` of `level - 1` in three bits. -/
theorem brightnessByteOfALevel : Obligations.BrightnessByteOfALevel := by
  intro level h1 h8
  have h0 : 0 ≤ level - 1 := by omega
  have h7 : level - 1 < 8 := by omega
  dsimp only
  rw [or_ofInt_eq_brightByte h0 h7, ← setWidth_ofInt_three h0 h7]
  exact ⟨brightByte_eq_add _, brightByte_high _, brightByte_low _, rfl, brightCommand_eq_brightByte h1 h8⟩

/-! ### The codes and the ready and busy outputs (R84, R85, R176) -/

theorem drvStateCode_ne_three (d : DrvState) : d.code ≠ 0b11 := by
  cases d <;> decide

theorem cmdReady_eq_one_iff (s : State) : cmdReady s = 1 ↔ s.drv_state = .idle := by
  by_cases h : s.drv_state = .idle <;> simp [cmdReady, h]

theorem busy_eq_not_cmdReady (s : State) : busy s = ~~~ (cmdReady s) := by
  by_cases h : s.drv_state = .idle <;> simp [busy, cmdReady, h]

theorem resultCode_isTrue_iff (r : ResultCode) : r.isTrue = true ↔ r = .ok :=
  decide_eq_true_iff

/-- Settles O56: the codes are the definitions' own values, the clauses about every state and every result
are the lemmas above. -/
theorem stateAndResultCodes : Obligations.StateAndResultCodes :=
  ⟨⟨rfl, rfl, rfl⟩,
    fun s => ⟨drvStateCode_ne_three s.drv_state, busy_eq_not_cmdReady s, cmdReady_eq_one_iff s⟩,
    ⟨rfl, rfl, rfl, rfl⟩, resultCode_isTrue_iff⟩

end Sys2Proof.Proofs

namespace Sys2Proof.Proofs

open Sys2Proof.Machine

/-! ### START (R101) -/

/-- A list of micro-ops without a sample moves the lines and leaves its events; `ack` and `draws` stay. -/
theorem runOps_no_sample {ops : List MicroOp} (h : sampleCount ops = 0) (s : State) :
    runOps ops s = { s with
      scl_o := (endLevels ops (s.scl_o, s.sda_o)).1
      sda_o := (endLevels ops (s.scl_o, s.sda_o)).2
      trace := s.trace ++ eventsOf ops s.draws } := by
  rw [runOps_eq, ackAfter, if_pos h, h, Nat.add_zero]

theorem exec_start (s : State) : exec .start s = .next (runOps startOps s) := rfl

theorem startOps_sampleCount : sampleCount startOps = 0 := rfl

theorem startOps_eventsOf (n : Nat) :
    eventsOf startOps n = [.sda 0, .wait 300, .scl 0, .wait 300] := rfl

theorem exec_start_effect (s : State) : exec .start s = .next { s with
    scl_o := 0, sda_o := 0
    trace := s.trace ++ [.sda 0, .wait 300, .scl 0, .wait 300] } := by
  rw [exec_start, runOps_no_sample startOps_sampleCount, startOps_endLevels, startOps_eventsOf]

/-- From idle the list is a start condition: the data output falls in the segment where the clock output is
still high. -/
theorem startOps_waveform_idle :
    waveform 1 1 0 startOps = [⟨1, 1, 0⟩, ⟨1, 0, 300⟩, ⟨0, 0, 300⟩] := by decide

/-- Settles O8: the effect from every state is the general one of a list without a sample; the length, the
duration and the waveform are those of the fixed list `startOps`. -/
theorem startExecutesItsFourMicroOps : Obligations.StartExecutesItsFourMicroOps :=
  ⟨exec_start_effect, rfl, rfl, startOps_waveform_idle⟩

end Sys2Proof.Proofs

namespace Sys2Proof.Proofs

open Sys2Proof.Machine

/-! ### Lists of micro-ops in parts -/

theorem sdaWrites_append (xs ys : List MicroOp) : sdaWrites (xs ++ ys) = sdaWrites xs ++ sdaWrites ys := by
  induction xs with
  | nil => rfl
  | cons op xs ih => cases op <;> simp [sdaWrites, ih]

theorem nominalUs_append (xs ys : List MicroOp) : nominalUs (xs ++ ys) = nominalUs xs + nominalUs ys := by
  simp only [nominalUs, waitsOf_append, List.sum_append]

/-- The second part is clocked from the levels the first part leaves. -/
theorem clockedLevels_append (xs ys : List MicroOp) (cd : Level × Level) :
    clockedLevels cd.1 cd.2 (xs ++ ys) =
      clockedLevels cd.1 cd.2 xs ++ clockedLevels (endLevels xs cd).1 (endLevels xs cd).2 ys := by
  induction xs generalizing cd with
  | nil => rfl
  | cons op xs ih =>
    cases op with
    | scl v =>
      have rest := ih (v, cd.2)
      by_cases rising : cd.1 = 0 ∧ v = 1
      · simp only [List.cons_append, clockedLevels, endLevels, if_pos rising, rest]
      · simp only [List.cons_append, clockedLevels, endLevels, if_neg rising, rest]
    | sda v => exact ih (cd.1, v)
    | wait n => exact ih cd
    | sample => exact ih cd

/-! ### A row of BITs (R111) -/

theorem bitOps_endLevels (b : Level) (cd : Level × Level) : endLevels (bitOps b) cd = (0, b) := rfl

theorem sdaWrites_bitOps (b : Level) : sdaWrites (bitOps b) = [b] := rfl

theorem waitsOf_bitOps (b : Level) : waitsOf (bitOps b) = [200, 100, 300] := rfl

theorem nominalUs_bitOps (b : Level) : nominalUs (bitOps b) = 600 := by
  simp [nominalUs, waitsOf_bitOps]

/-- The new level stands on the data output before the clock rises. -/
theorem clockedLevels_bitOps (d b : Level) : clockedLevels 0 d (bitOps b) = [b] := rfl

theorem sdaWrites_bits (bs : List Level) : sdaWrites (bs.flatMap bitOps) = bs := by
  induction bs with
  | nil => rfl
  | cons b bs ih => rw [List.flatMap_cons, sdaWrites_append, sdaWrites_bitOps, ih, List.singleton_append]

theorem waitsOf_bits (bs : List Level) :
    waitsOf (bs.flatMap bitOps) = (List.replicate bs.length [200, 100, 300]).flatten := by
  induction bs with
  | nil => rfl
  | cons b bs ih =>
    rw [List.flatMap_cons, waitsOf_append, waitsOf_bitOps, ih, List.length_cons, List.replicate_succ,
      List.flatten_cons]

theorem nominalUs_bits (bs : List Level) : nominalUs (bs.flatMap bitOps) = 600 * bs.length := by
  induction bs with
  | nil => rfl
  | cons b bs ih =>
    rw [List.flatMap_cons, nominalUs_append, nominalUs_bitOps, ih, List.length_cons, Nat.mul_succ,
      Nat.add_comm]

theorem clockedLevels_bits (bs : List Level) (d : Level) : clockedLevels 0 d (bs.flatMap bitOps) = bs := by
  induction bs generalizing d with
  | nil => rfl
  | cons b bs ih =>
    rw [List.flatMap_cons, clockedLevels_append _ _ (0, d), clockedLevels_bitOps, bitOps_endLevels, ih,
      List.singleton_append]

/-! ### The parts of SEND_BYTE (R110 to R114) -/

/-- The levels a byte puts on the data line, `v[0]` first (R113). -/
def byteBits (v : Byte) : List Level := (List.range 8).map (bitAt v)

theorem byteBits_length (v : Byte) : (byteBits v).length = 8 := rfl

theorem dataOps_eq_bits (v : Byte) : dataOps v = (byteBits v).flatMap bitOps := rfl

theorem dataOps_eq_flatMap (v : Byte) : dataOps v = (List.range 8).flatMap fun k => bitOps (bitAt v k) := rfl

theorem waitsOf_ackOps : waitsOf ackOps = [300, 600, 300] := rfl

theorem nominalUs_dataOps (v : Byte) : nominalUs (dataOps v) = 4800 := by
  rw [dataOps_eq_bits, nominalUs_bits, byteBits_length]

theorem nominalUs_ackOps : nominalUs ackOps = 1200 := rfl

/-- The ack pulse shows the level the last bit left (R114). -/
theorem clockedLevels_ackOps (d : Level) : clockedLevels 0 d ackOps = [d] := rfl

theorem dataOps_ackOps_endLevels (v : Byte) (cd : Level × Level) :
    endLevels (dataOps v ++ ackOps) cd = (0, bitAt v 7) := by
  rw [endLevels_append, dataOps_endLevels, ackOps_endLevels]

theorem clockedLevels_dataOps (v : Byte) (d : Level) : clockedLevels 0 d (dataOps v) = byteBits v := by
  rw [dataOps_eq_bits, clockedLevels_bits]

theorem clockedLevels_dataOps_ackOps (v : Byte) (d : Level) :
    clockedLevels 0 d (dataOps v ++ ackOps) = byteBits v ++ [bitAt v 7] := by
  rw [clockedLevels_append _ _ (0, d), clockedLevels_dataOps, dataOps_endLevels, clockedLevels_ackOps]

/-! ### SEND_BYTE (R110, R113, R119) -/

theorem exec_sendByte (v : Byte) (s p : BitVec 1) (σ : State) :
    exec (.sendByte v s p) σ = .next (runOps (sendByteOps v s p) σ) := rfl

theorem exec_sendByte_effect (v : Byte) (s p : BitVec 1) (σ : State) :
    exec (.sendByte v s p) σ = .next { σ with
      scl_o := p, sda_o := if p = 1 then 1 else bitAt v 7, ack := Config.sdaIn σ.draws,
      draws := σ.draws + 1, trace := σ.trace ++ eventsOf (sendByteOps v s p) σ.draws } := by
  rw [exec_sendByte, runOps_one_sample (sendByteOps_sampleCount v s p), sendByteOps_endLevels]

theorem sendByteOps_eq_flatMap (v : Byte) (s p : BitVec 1) :
    sendByteOps v s p = (if s = 1 then startOps else []) ++
      (List.range 8).flatMap (fun k => bitOps (bitAt v k)) ++ ackOps ++
      (if p = 1 then stopOps else []) ++ [.wait 300] := by
  rw [sendByteOps, dataOps_eq_flatMap]

/-- The start condition is a prefix of the byte's list. -/
theorem sendByteOps_start (v : Byte) (p : BitVec 1) :
    sendByteOps v 1 p = startOps ++ sendByteOps v 0 p := rfl

/-- What follows the ack phase: STOP if selected, and the trailing wait. -/
theorem clockedLevels_tail (p : BitVec 1) (d : Level) :
    clockedLevels 0 d ((if p = 1 then stopOps else []) ++ [.wait Config.tTrail]) =
      if p = 1 then [d] else [] := by
  rcases level_cases p with rfl | rfl <;> rfl

theorem clockedLevels_sendByteOps (v : Byte) (p : BitVec 1) (d : Level) :
    clockedLevels 0 d (sendByteOps v 0 p) =
      byteBits v ++ [bitAt v 7] ++ (if p = 1 then [bitAt v 7] else []) := by
  have parts : sendByteOps v 0 p =
      (dataOps v ++ ackOps) ++ ((if p = 1 then stopOps else []) ++ [.wait Config.tTrail]) := by
    rw [sendByteOps, if_neg (by decide), List.nil_append, List.append_assoc]
  rw [parts, clockedLevels_append _ _ (0, d), clockedLevels_dataOps_ackOps, dataOps_ackOps_endLevels,
    clockedLevels_tail]

/-- START from idle has no rising clock edge and leaves both outputs at 0. -/
theorem clockedLevels_sendByteOps_start (v : Byte) (p : BitVec 1) :
    clockedLevels 1 1 (sendByteOps v 1 p) = clockedLevels 0 0 (sendByteOps v 0 p) := by
  have noEdge : clockedLevels 1 1 startOps = [] := by decide
  rw [sendByteOps_start, clockedLevels_append _ _ (1, 1), noEdge, startOps_endLevels, List.nil_append]

theorem waitsOf_sendByteOps (v : Byte) :
    waitsOf (sendByteOps v 0 0) =
      (List.replicate 8 [200, 100, 300]).flatten ++ [300, 600, 300, 300] := by
  have parts : sendByteOps v 0 0 = dataOps v ++ (ackOps ++ [.wait Config.tTrail]) := rfl
  rw [parts, waitsOf_append, waitsOf_append, dataOps_eq_bits, waitsOf_bits, byteBits_length, waitsOf_ackOps]
  rfl

/-- 4800 for the bits, 1200 for the ack phase, 300 for the trailing wait, 600 for each condition (R119). -/
theorem nominalUs_sendByteOps (v : Byte) (s p : BitVec 1) :
    nominalUs (sendByteOps v s p) = 6300 + 600 * s.toNat + 600 * p.toNat := by
  have start : nominalUs (if s = 1 then startOps else []) = 600 * s.toNat := by
    rcases level_cases s with rfl | rfl <;> rfl
  have stop : nominalUs (if p = 1 then stopOps else []) = 600 * p.toNat := by
    rcases level_cases p with rfl | rfl <;> rfl
  have trail : nominalUs [.wait Config.tTrail] = 300 := rfl
  simp only [sendByteOps, nominalUs_append, start, nominalUs_dataOps, nominalUs_ackOps, stop, trail]
  omega

/-- Settles O12: the effect of a list with a single sample, at the end levels of the byte's list. -/
theorem sendByteResult : Obligations.SendByteResult :=
  ⟨exec_sendByte_effect, fun v s p =>
    ⟨sendByteOps_eq_flatMap v s p, sendByteOps_length v s p, sendByteOps_sampleCount v s p⟩⟩

/-- Settles O13: a BIT clocks the level it writes, so a row of BITs clocks its levels in order; what follows
the eighth BIT does not write the data line before the last clock edge. -/
theorem bitsGoLeastSignificantFirst : Obligations.BitsGoLeastSignificantFirst := fun v =>
  ⟨sdaWrites_bits (byteBits v),
    fun cd => ⟨dataOps_endLevels v cd, dataOps_ackOps_endLevels v cd⟩,
    fun p => (clockedLevels_sendByteOps_start v p).trans (clockedLevels_sendByteOps v p 0),
    clockedLevels_sendByteOps v⟩

/-- Settles O15: the labels of the parts in order, and the sums of the parts. -/
theorem waitLabelsAndNominalDurations : Obligations.WaitLabelsAndNominalDurations := fun v =>
  have labels := waitsOf_sendByteOps v
  ⟨labels, congrArg List.length labels, nominalUs_bitOps, nominalUs_dataOps v, nominalUs_ackOps,
    nominalUs_sendByteOps v 0 0, nominalUs_sendByteOps v 1 0, nominalUs_sendByteOps v 0 1,
    nominalUs_sendByteOps v 1 1⟩

end Sys2Proof.Proofs

namespace Sys2Proof.Proofs

open Sys2Proof.Machine

/-! ### Lists with one or more samples -/

/-- After `n + 1` samples `ack` holds the last of them, draw `n` from the list's first. -/
theorem runOps_samples {ops : List MicroOp} {n : Nat} (h : sampleCount ops = n + 1) (s : State) :
    runOps ops s = { s with
      scl_o := (endLevels ops (s.scl_o, s.sda_o)).1
      sda_o := (endLevels ops (s.scl_o, s.sda_o)).2
      ack := Config.sdaIn (s.draws + n)
      draws := s.draws + (n + 1)
      trace := s.trace ++ eventsOf ops s.draws } := by
  rw [runOps_eq, ackAfter, if_neg (by omega), h, ← Nat.add_assoc, Nat.add_sub_cancel]

/-! ### INIT_SEQ (R137) -/

theorem exec_initSeq (s : State) : exec .initSeq s = .next (runOps initSeqOps s) := rfl

theorem initSeqOps_endLevels (cd : Level × Level) : endLevels initSeqOps cd = (1, 1) :=
  initProg_endLevels cd

theorem initSeqOps_sampleCount : sampleCount initSeqOps = 2 := by
  have settle : sampleCount [.wait Config.tInitSettle] = 0 := rfl
  rw [initSeqOps, sampleCount_append, sampleCount_append, settle, sendByteOps_sampleCount,
    sendByteOps_sampleCount]

theorem initSeqOps_eventsOf (n : Nat) :
    eventsOf initSeqOps n = eventsOf (sendByteOps 0x8F 1 1) n ++
      eventsOf (sendByteOps 0x40 1 1) (n + 1) ++ [.wait 10000] := by
  have settle (m : Nat) : eventsOf [.wait Config.tInitSettle] m = [.wait 10000] := rfl
  rw [initSeqOps, eventsOf_append, eventsOf_append, sendByteOps_sampleCount, settle]

theorem nominalUs_initSeqOps : nominalUs initSeqOps = 25000 := by
  have settle : nominalUs [.wait Config.tInitSettle] = 10000 := rfl
  rw [initSeqOps, nominalUs_append, nominalUs_append, nominalUs_sendByteOps, nominalUs_sendByteOps, settle]
  rfl

theorem exec_initSeq_effect (s : State) : exec .initSeq s = .next { s with
    scl_o := 1, sda_o := 1, ack := Config.sdaIn (s.draws + 1), draws := s.draws + 2
    trace := s.trace ++ eventsOf (sendByteOps 0x8F 1 1) s.draws ++
      eventsOf (sendByteOps 0x40 1 1) (s.draws + 1) ++ [.wait 10000] } := by
  rw [exec_initSeq, runOps_samples initSeqOps_sampleCount, initSeqOps_endLevels, initSeqOps_eventsOf]
  simp only [List.append_assoc]

/-- Settles O19: the effect of a list with two samples, whose events are those of its three parts; its length
is that of INIT_PROG, which is the same list (R39). -/
theorem initSequenceResult : Obligations.InitSequenceResult :=
  ⟨exec_initSeq_effect, initProg_length, nominalUs_initSeqOps, initSeqOps_sampleCount⟩

/-! ### TEXT_FRAME (R142) -/

theorem exec_textFrame (d0 d1 d2 d3 : Byte) (s : State) :
    exec (.textFrame d0 d1 d2 d3) s = .next (runOps (textFrameOps d0 d1 d2 d3) s) := rfl

theorem textFrameOps_endLevels (d0 d1 d2 d3 : Byte) (cd : Level × Level) :
    endLevels (textFrameOps d0 d1 d2 d3) cd = (1, 1) :=
  textProg_endLevels d0 d1 d2 d3 cd

theorem textFrameOps_sampleCount (d0 d1 d2 d3 : Byte) : sampleCount (textFrameOps d0 d1 d2 d3) = 5 := by
  simp only [textFrameOps, sampleCount_append, sendByteOps_sampleCount]

/-- Each byte of the frame takes one sample, so byte `k` begins at draw `n + k`. -/
theorem textFrameOps_eventsOf (d0 d1 d2 d3 : Byte) (n : Nat) :
    eventsOf (textFrameOps d0 d1 d2 d3) n = eventsOf (sendByteOps 0xC0 1 0) n ++
      eventsOf (sendByteOps d0 0 0) (n + 1) ++ eventsOf (sendByteOps d1 0 0) (n + 2) ++
      eventsOf (sendByteOps d2 0 0) (n + 3) ++ eventsOf (sendByteOps d3 0 1) (n + 4) := by
  simp only [textFrameOps, eventsOf_append, sampleCount_append, sendByteOps_sampleCount]

/-- 6900 for the first byte and for the last, 6300 for each of the three between. -/
theorem nominalUs_textFrameOps (d0 d1 d2 d3 : Byte) : nominalUs (textFrameOps d0 d1 d2 d3) = 32700 := by
  simp only [textFrameOps, nominalUs_append, nominalUs_sendByteOps]
  rfl

theorem exec_textFrame_effect (d0 d1 d2 d3 : Byte) (s : State) :
    exec (.textFrame d0 d1 d2 d3) s = .next { s with
      scl_o := 1, sda_o := 1, ack := Config.sdaIn (s.draws + 4), draws := s.draws + 5
      trace := s.trace ++ eventsOf (sendByteOps 0xC0 1 0) s.draws ++
        eventsOf (sendByteOps d0 0 0) (s.draws + 1) ++ eventsOf (sendByteOps d1 0 0) (s.draws + 2) ++
        eventsOf (sendByteOps d2 0 0) (s.draws + 3) ++ eventsOf (sendByteOps d3 0 1) (s.draws + 4) } := by
  rw [exec_textFrame, runOps_samples (textFrameOps_sampleCount d0 d1 d2 d3), textFrameOps_endLevels,
    textFrameOps_eventsOf]
  simp only [List.append_assoc]

/-- Settles O21: the effect of a list with five samples, whose events are those of its five bytes; its length
is that of TEXT_PROG, which is the same list (R39). -/
theorem textFrameResult : Obligations.TextFrameResult := fun d0 d1 d2 d3 =>
  ⟨exec_textFrame_effect d0 d1 d2 d3, textProg_length d0 d1 d2 d3, nominalUs_textFrameOps d0 d1 d2 d3,
    textFrameOps_sampleCount d0 d1 d2 d3⟩

end Sys2Proof.Proofs

namespace Sys2Proof.Proofs

open Sys2Proof.Machine

/-! ### Reads of a font ROM (R51, R150) -/

theorem romRead_cons_same (c p : Byte) (rom : List Host.Cell) :
    romRead ((c.toNat, p) :: rom) c = some p := if_pos rfl

theorem romRead_cons_of_ne {a : Nat} {c : Byte} (h : a ≠ c.toNat) (p : Byte) (rom : List Host.Cell) :
    romRead ((a, p) :: rom) c = romRead rom c := if_neg h

/-- What a read answers stands in the ROM under the code. -/
theorem mem_of_romRead_eq_some {rom : List Host.Cell} {c p : Byte} (h : romRead rom c = some p) :
    (c.toNat, p) ∈ rom := by
  induction rom with
  | nil => cases h
  | cons cell rom ih =>
    obtain ⟨a, q⟩ := cell
    by_cases ha : a = c.toNat
    · subst ha
      rw [romRead_cons_same] at h
      cases h
      exact List.mem_cons_self
    · rw [romRead_cons_of_ne ha] at h
      exact List.mem_cons_of_mem _ (ih h)

/-- The codes that read a pattern are those listed. -/
theorem romRead_isSome_iff (rom : List Host.Cell) (c : Byte) :
    (romRead rom c).isSome = true ↔ c.toNat ∈ rom.map Prod.fst := by
  induction rom with
  | nil => simp [romRead]
  | cons cell rom ih =>
    obtain ⟨a, q⟩ := cell
    by_cases ha : a = c.toNat
    · simp [ha, romRead_cons_same]
    · rw [romRead_cons_of_ne ha, ih, List.map_cons, List.mem_cons, or_iff_right (Ne.symm ha)]

/-! ### What R153 says of the reads -/

theorem fontRomRequirements_iff (rom : List Host.Cell) :
    fontRomRequirements rom = true ↔
      Memory.wf rom = true ∧ rom.map Prod.fst = fontKeys.map BitVec.toNat ∧
        ∀ cell ∈ rom, fontCellWf cell = true := by
  simp [fontRomRequirements, and_assoc]

theorem fontCellWf_dot (p : Byte) : fontCellWf (Config.dotChar.toNat, p) = true ↔ p = 0x80 := by
  rw [fontCellWf, if_pos rfl, decide_eq_true_iff]

theorem fontCellWf_of_ne_dot {c : Byte} (h : c ≠ Config.dotChar) (p : Byte) :
    fontCellWf (c.toNat, p) = true ↔ p.msb = false := by
  have hne : c.toNat ≠ Config.dotChar.toNat := fun he => h (BitVec.eq_of_toNat_eq he)
  rw [fontCellWf, if_neg hne, Bool.not_eq_true']

/-- R153 (a): the keys of the ROM are those of R151. -/
theorem romRead_isSome_iff_mem_fontKeys {rom : List Host.Cell} (h : fontRomRequirements rom = true) (c : Byte) :
    (romRead rom c).isSome = true ↔ c ∈ fontKeys := by
  obtain ⟨-, hkeys, -⟩ := (fontRomRequirements_iff rom).1 h
  rw [romRead_isSome_iff, hkeys]
  exact List.mem_map_of_injective BitVec.toNat_injective

theorem fontCellWf_of_romRead {rom : List Host.Cell} (h : fontRomRequirements rom = true) {c p : Byte}
    (hp : romRead rom c = some p) : fontCellWf (c.toNat, p) = true := by
  obtain ⟨-, -, hcells⟩ := (fontRomRequirements_iff rom).1 h
  exact hcells _ (mem_of_romRead_eq_some hp)

/-- R153 (d). -/
theorem romRead_dot {rom : List Host.Cell} (h : fontRomRequirements rom = true) {p : Byte}
    (hp : romRead rom Config.dotChar = some p) : p = 0x80 :=
  (fontCellWf_dot p).1 (fontCellWf_of_romRead h hp)

/-- R153 (c). -/
theorem romRead_msb_of_ne_dot {rom : List Host.Cell} (h : fontRomRequirements rom = true) {c p : Byte}
    (hc : c ≠ Config.dotChar) (hp : romRead rom c = some p) : p.msb = false :=
  (fontCellWf_of_ne_dot hc p).1 (fontCellWf_of_romRead h hp)

/-- The default ROM is a value of the parameter FONT_ROM (R152, R153). -/
theorem fontRom_admitted : fontRomWf fontRom = true := by decide

/-- Settles O28: a read answers a cell of the ROM, and R153 speaks of every cell. -/
theorem everyAdmittedRomMeetsItsRequirements : Obligations.EveryAdmittedRomMeetsItsRequirements :=
  ⟨fontRom_admitted, rfl, fun rom h => ((fontRomWf_iff rom).1 h).1, fun _ h c =>
    ⟨romRead_isSome_iff_mem_fontKeys h c, fun _ hp =>
      ⟨fun hc => romRead_dot h (hc ▸ hp), fun hc => romRead_msb_of_ne_dot h hc hp⟩⟩⟩

end Sys2Proof.Proofs

namespace Sys2Proof.Proofs

open Sys2Proof.Machine

/-! ### The host commands in IDLE (R172, R175, R194) -/

section

variable {s : State} (hd : s.drv_state = .idle)
include hd

theorem exec_setBrightness_of_ok {level : BitVec 8} {b : Byte} (hb : brightCommand level.toInt = .ok b) :
    exec (.setBrightness level) s = .next (beginProgram (brightProg b) (latchBrightness level s)) := by
  simp [exec, execSetBrightness, hd, levelOf, hb]

theorem exec_setBrightness_of_error {level : BitVec 8} {e : ResultCode}
    (hb : brightCommand level.toInt = .error e) :
    exec (.setBrightness level) s = .next (raiseError e (latchBrightness level s)) := by
  simp [exec, execSetBrightness, hd, levelOf, hb]

theorem exec_setText_of_ok {text : List Byte} (ha : (assembleText s.rom text).code = .ok) :
    exec (.setText text) s =
      let b := (assembleText s.rom text).buf
      .next (beginProgram (textProg b.d0 b.d1 b.d2 b.d3)
        (storeAssembly (assembleText s.rom text) (latchText text s))) := by
  simp [exec, execSetText, hd, ha]

theorem exec_setText_of_error {text : List Byte} (ha : (assembleText s.rom text).code ≠ .ok) :
    exec (.setText text) s = .next (raiseError (assembleText s.rom text).code
      (storeAssembly (assembleText s.rom text) (latchText text s))) := by
  cases hc : (assembleText s.rom text).code with
  | ok => exact absurd hc ha
  | invalidBrightnessLevel => simp [exec, execSetText, hd, hc]
  | invalidDecimalPointPlacement => simp [exec, execSetText, hd, hc]
  | unsupportedCharacter => simp [exec, execSetText, hd, hc]

/-- Transmission begins exactly for a level that is valid (R140). -/
theorem exec_setBrightness_drv_state {level : BitVec 8} {t : State}
    (h : exec (.setBrightness level) s = .next t) :
    t.drv_state = if level.toInt ≤ 8 then .transmitting else .idle := by
  obtain ⟨h8, b, hb⟩ | ⟨h9, hb⟩ := brightCommand_cases level.toInt
  · rw [exec_setBrightness_of_ok hd hb] at h
    cases h
    rw [if_pos h8, beginProgram_drv_state]
  · rw [exec_setBrightness_of_error hd hb] at h
    cases h
    rw [if_neg (by omega), raiseError_drv_state, latchBrightness_drv_state, hd]

/-- Transmission begins exactly for a text that assembles (R175). -/
theorem exec_setText_drv_state {text : List Byte} {t : State} (h : exec (.setText text) s = .next t) :
    t.drv_state = if (assembleText s.rom text).code = .ok then .transmitting else .idle := by
  by_cases ha : (assembleText s.rom text).code = .ok
  · rw [exec_setText_of_ok hd ha] at h
    cases h
    rw [if_pos ha, beginProgram_drv_state]
  · rw [exec_setText_of_error hd ha] at h
    cases h
    rw [if_neg ha, raiseError_drv_state, storeAssembly_drv_state, latchText_drv_state, hd]

end

/-! ### The step between programs (R40, R170) -/

theorem step_of_reset {s : State} (hrst : (portsNow s).rst = 1) :
    step s = .next (resetState (beginStep s)) := by
  simp only [step, stepBody, if_pos hrst]

theorem doMicro_drv_state (op : MicroOp) (s : State) : (doMicro op s).drv_state = s.drv_state := by
  cases op <;> rfl

section

variable {s : State} (hrst : (portsNow s).rst = 0) (hr : s.request = none)
include hrst hr

theorem step_of_no_micro (hn : nextOp s = none) :
    step s = betweenPrograms (portsNow s) (beginStep s) := by
  have hn' : nextOp (beginStep s) = none := hn
  rw [step_of_quiet s hrst hr, sequencerStep, hn']

/-- No micro-op is left at the end of a program or beyond it. -/
theorem step_running_past_last_micro (hd : s.drv_state ≠ .idle) (hle : s.prog.length ≤ s.upc.toNat) :
    step s = betweenPrograms (portsNow s) (beginStep s) :=
  step_of_no_micro hrst hr ((nextOp_running s hd).trans (List.getElem?_eq_none hle))

/-- DONE of R40 for a host command. -/
theorem step_transmitting_ended (hd : s.drv_state = .transmitting) (hend : s.upc.toNat = s.prog.length) :
    step s = .next (completeCommand (beginStep s)) := by
  rw [step_running_past_last_micro hrst hr (by simp [hd]) hend.ge]
  simp [betweenPrograms, hd, hend]

/-- DONE of R40 for initialization. -/
theorem step_uninit_ended (hd : s.drv_state = .uninit) (hend : s.upc.toNat = s.prog.length) :
    step s = .next (completeInit (beginStep s)) := by
  rw [step_running_past_last_micro hrst hr (by simp [hd]) hend.ge]
  simp [betweenPrograms, hd, hend]

theorem step_running_beyond_program (hd : s.drv_state ≠ .idle) (hlt : s.prog.length < s.upc.toNat) :
    step s = .next (beginStep s) := by
  rw [step_running_past_last_micro hrst hr hd hlt.le]
  cases hs : s.drv_state with
  | idle => exact absurd hs hd
  | uninit => simp [betweenPrograms, hs, hlt.ne']
  | transmitting => simp [betweenPrograms, hs, hlt.ne']

theorem step_ended_drv_state {t : State} (hd : s.drv_state ≠ .idle)
    (hend : s.upc.toNat = s.prog.length) (h : step s = .next t) : t.drv_state = .idle := by
  cases hs : s.drv_state with
  | idle => exact absurd hs hd
  | uninit =>
    rw [step_uninit_ended hrst hr hs hend] at h
    cases h
    exact completeInit_drv_state _
  | transmitting =>
    rw [step_transmitting_ended hrst hr hs hend] at h
    cases h
    exact completeCommand_drv_state _

/-- A program keeps the driver state until the step that completes it. -/
theorem step_running_drv_state {t : State} (hd : s.drv_state ≠ .idle) (h : step s = .next t) :
    t.drv_state = if s.upc.toNat = s.prog.length then .idle else s.drv_state := by
  rcases lt_trichotomy s.upc.toNat s.prog.length with hlt | hend | hgt
  · rw [step_micro s _ hrst hr hd (List.getElem?_eq_getElem hlt)] at h
    cases h
    rw [if_neg hlt.ne, advance_drv_state, doMicro_drv_state, beginStep_drv_state]
  · rw [if_pos hend, step_ended_drv_state hrst hr hd hend h]
  · rw [step_running_beyond_program hrst hr hd hgt] at h
    cases h
    rw [if_neg hgt.ne', beginStep_drv_state]

theorem step_idle_without_command (hd : s.drv_state = .idle) (hv : (portsNow s).cmd_valid ≠ 1) :
    step s = .next (beginStep s) := by
  have hp : offeredCommand (portsNow s) = none := if_neg hv
  rw [step_of_no_micro hrst hr (nextOp_idle s hd)]
  simp [betweenPrograms, hd, hp]

/-- ACCEPT of R40: the offered command is executed on the latched ports. -/
theorem step_idle_with_command (hd : s.drv_state = .idle) (hv : (portsNow s).cmd_valid = 1) :
    step s = exec (decodeH (portsNow s).cmd_op (portsNow s).cmd_level (portsNow s).cmd_text)
      (latchPorts (portsNow s) (beginStep s)) := by
  have hp : offeredCommand (portsNow s) =
      some (.h (portsNow s).cmd_op (portsNow s).cmd_level (portsNow s).cmd_text) := if_pos hv
  rw [step_of_no_micro hrst hr (nextOp_idle s hd)]
  simp [betweenPrograms, hd, hp, serveRequest, decode]

theorem step_idle_with_command_drv_state {t : State} (hd : s.drv_state = .idle)
    (hv : (portsNow s).cmd_valid = 1) (h : step s = .next t) :
    t.drv_state = if ((portsNow s).cmd_op = 0 ∧ (portsNow s).cmd_level.toInt ≤ 8) ∨
        ((portsNow s).cmd_op = 1 ∧ (assembleText s.rom (portsNow s).cmd_text).code = .ok)
      then .transmitting else .idle := by
  have hl : (latchPorts (portsNow s) (beginStep s)).drv_state = .idle := hd
  rw [step_idle_with_command hrst hr hd hv] at h
  rcases level_cases (portsNow s).cmd_op with hop | hop
  · rw [hop, decodeH, if_pos rfl] at h
    simpa [hop] using exec_setBrightness_drv_state hl h
  · rw [hop, decodeH, if_neg (by decide)] at h
    have ht : t.drv_state =
        if (assembleText s.rom (portsNow s).cmd_text).code = .ok then .transmitting else .idle :=
      exec_setText_drv_state hl h
    simpa [hop] using ht

/-- IDLE is left exactly for a command whose validation succeeds. -/
theorem step_idle_drv_state {t : State} (hd : s.drv_state = .idle) (h : step s = .next t) :
    t.drv_state = if (portsNow s).cmd_valid = 1 ∧
        (((portsNow s).cmd_op = 0 ∧ (portsNow s).cmd_level.toInt ≤ 8) ∨
          ((portsNow s).cmd_op = 1 ∧ (assembleText s.rom (portsNow s).cmd_text).code = .ok))
      then .transmitting else .idle := by
  by_cases hv : (portsNow s).cmd_valid = 1
  · rw [step_idle_with_command_drv_state hrst hr hd hv h]
    simp only [hv, true_and]
  · rw [step_idle_without_command hrst hr hd hv] at h
    cases h
    rw [if_neg (fun hc => hv hc.1), beginStep_drv_state, hd]

end

/-- Settles O42: reset, then one lemma for the two states in which a program runs and one for IDLE. -/
theorem driverStateTransitions : Obligations.DriverStateTransitions := by
  intro s t hr h
  refine ⟨fun hrst => ?_, fun hrst => ⟨fun hd => ?_, fun hd => ?_, fun hd => ?_⟩⟩
  · rw [step_of_reset hrst] at h
    cases h
    exact (atReset_resetState _).drv_state
  · rw [step_running_drv_state hrst hr (by simp [hd]) h, hd]
  · rw [step_running_drv_state hrst hr (by simp [hd]) h, hd]
  · exact step_idle_drv_state hrst hr hd h

end Sys2Proof.Proofs

namespace Sys2Proof.Proofs

open Sys2Proof.Machine

/-- A driver that is not IDLE takes no command (R25, R176). -/
theorem cmdReady_of_not_idle {s : State} (hd : s.drv_state ≠ .idle) : cmdReady s = 0 := if_neg hd

/-- After RESET no command is taken until INIT completes (R25, R210). -/
theorem cmdReady_of_atReset {s : State} (h : AtReset s) : cmdReady s = 0 :=
  cmdReady_of_not_idle (by simp [h.drv_state])

/-- Settles O2: the step tests `rst` first, so it answers `resetState` whatever it interrupts. -/
theorem resetWinsOverEveryStep : Obligations.ResetWinsOverEveryStep := by
  intro s hrst
  have hreset : AtReset (resetState (beginStep s)) := atReset_resetState (beginStep s)
  exact ⟨_, step_of_reset hrst, hreset, cmdReady_of_atReset hreset⟩

end Sys2Proof.Proofs

namespace Sys2Proof.Proofs

open Sys2Proof.Machine

/-! ### What an operation can do, and what a step can do (R10, R40) -/

/-- The states an operation of the opcode table can leave, by the shared operation it ends in. -/
inductive ExecRule (s : State) : State → Prop where
  | ran (ops : List MicroOp) : ExecRule s (runOps ops s)
  | returned (c : Byte) : ExecRule s (returnPattern c s)
  | raised (e : ResultCode) : ExecRule s (raiseError e s)
  | assembled (a : Assembly) : ExecRule s (storeAssembly a s)
  | assemblyRaised (a : Assembly) (e : ResultCode) : ExecRule s (raiseError e (storeAssembly a s))
  | initLoaded : ExecRule s { s with prog := initProg, upc := 0, drv_state := .uninit }
  | brightnessBegun (level : BitVec 8) (p : List MicroOp) :
      ExecRule s (beginProgram p (latchBrightness level s))
  | brightnessRaised (level : BitVec 8) (e : ResultCode) : ExecRule s (raiseError e (latchBrightness level s))
  | textBegun (text : List Byte) (a : Assembly) (p : List MicroOp) :
      ExecRule s (beginProgram p (storeAssembly a (latchText text s)))
  | textRaised (text : List Byte) (a : Assembly) (e : ResultCode) :
      ExecRule s (raiseError e (storeAssembly a (latchText text s)))

theorem exec_brightSelect_of_ok {level : Int} {b : Byte} (h : brightCommand level = .ok b) (s : State) :
    exec (.brightSelect level) s = .next (runOps (sendByteOps b 1 1) s) := by
  simp only [exec, execBrightSelect, h]

theorem exec_brightSelect_of_error {level : Int} {e : ResultCode} (h : brightCommand level = .error e)
    (s : State) : exec (.brightSelect level) s = .next (raiseError e s) := by
  simp only [exec, execBrightSelect, h]

theorem exec_assemble_of_ok {text : List Byte} {s : State} (h : (assembleText s.rom text).code = .ok) :
    exec (.assemble text) s = .next (storeAssembly (assembleText s.rom text) s) := by
  simp only [exec, execAssemble, h]

theorem exec_assemble_of_error {text : List Byte} {s : State} (h : (assembleText s.rom text).code ≠ .ok) :
    exec (.assemble text) s =
      .next (raiseError (assembleText s.rom text).code (storeAssembly (assembleText s.rom text) s)) := by
  cases hc : (assembleText s.rom text).code with
  | ok => exact absurd hc h
  | invalidBrightnessLevel => simp only [exec, execAssemble, hc]
  | invalidDecimalPointPlacement => simp only [exec, execAssemble, hc]
  | unsupportedCharacter => simp only [exec, execAssemble, hc]

/-- R178: a host command taken while the driver is not IDLE has no effect. -/
theorem exec_setBrightness_busy {s : State} (hd : s.drv_state ≠ .idle) (level : BitVec 8) :
    exec (.setBrightness level) s = .next s := by
  cases h : s.drv_state with
  | idle => exact absurd h hd
  | uninit => simp only [exec, execSetBrightness, h]
  | transmitting => simp only [exec, execSetBrightness, h]

/-- R178, for the other host command. -/
theorem exec_setText_busy {s : State} (hd : s.drv_state ≠ .idle) (text : List Byte) :
    exec (.setText text) s = .next s := by
  cases h : s.drv_state with
  | idle => exact absurd h hd
  | uninit => simp only [exec, execSetText, h]
  | transmitting => simp only [exec, execSetText, h]

theorem exec_setBrightness_rule (level : BitVec 8) (s : State) :
    ∃ t, exec (.setBrightness level) s = .next t ∧ ExecRule s t := by
  by_cases hd : s.drv_state = .idle
  · cases hb : brightCommand level.toInt with
    | ok b => exact ⟨_, exec_setBrightness_of_ok hd hb, .brightnessBegun _ _⟩
    | error e => exact ⟨_, exec_setBrightness_of_error hd hb, .brightnessRaised _ _⟩
  · exact ⟨_, exec_setBrightness_busy hd level, .ran []⟩

theorem exec_setText_rule (text : List Byte) (s : State) :
    ∃ t, exec (.setText text) s = .next t ∧ ExecRule s t := by
  by_cases hd : s.drv_state = .idle
  · by_cases ha : (assembleText s.rom text).code = .ok
    · exact ⟨_, exec_setText_of_ok hd ha, .textBegun _ _ _⟩
    · exact ⟨_, exec_setText_of_error hd ha, .textRaised _ _ _⟩
  · exact ⟨_, exec_setText_busy hd text, .ran []⟩

/-- Every operation answers a next state, and it is one of those `ExecRule` lists. The rows that are not named
are the cells of the font ROM. -/
theorem exec_rule (i : Instr) (s : State) : ∃ t, exec i s = .next t ∧ ExecRule s t := by
  cases i
  case setBrightness level => exact exec_setBrightness_rule level s
  case setText text => exact exec_setText_rule text s
  case init => exact ⟨_, rfl, .initLoaded⟩
  case brightSelect level =>
    cases h : brightCommand level with
    | ok b => exact ⟨_, exec_brightSelect_of_ok h s, .ran _⟩
    | error e => exact ⟨_, exec_brightSelect_of_error h s, .raised e⟩
  case assemble text =>
    by_cases h : (assembleText s.rom text).code = .ok
    · exact ⟨_, exec_assemble_of_ok h, .assembled _⟩
    · exact ⟨_, exec_assemble_of_error h, .assemblyRaised _ _⟩
  case sda v => exact ⟨_, rfl, .ran [.sda v]⟩
  case scl v => exact ⟨_, rfl, .ran [.scl v]⟩
  case wait n => exact ⟨_, rfl, .ran [.wait n]⟩
  case sample => exact ⟨_, rfl, .ran [.sample]⟩
  case unblank | blank | setAutoinc | brightnessByte | setStartAddr | data | dataLast | initSeq | textFrame
      | sendByte | bit | ackPhase | start | stop => exact ⟨_, rfl, .ran _⟩
  all_goals exact ⟨_, rfl, .returned _⟩

/-- The state in which an offered command is evaluated: the entry consumed, the pulse over, the operand ports
latched (R40 ACCEPT, R177). -/
def accepting (s : State) : State := latchPorts (portsNow s) (beginStep s)

/-- The states a step without an internal request can leave: R40's rules, with ACCEPT split by the command and by
its validation. -/
inductive StepRule (s : State) : State → Prop where
  | reset (hrst : (portsNow s).rst = 1) : StepRule s (resetState (beginStep s))
  | micro (hrst : (portsNow s).rst = 0) (hd : s.drv_state ≠ .idle) (op : MicroOp)
      (hop : s.prog[s.upc.toNat]? = some op) : StepRule s (advance (doMicro op (beginStep s)))
  | commandDone (hrst : (portsNow s).rst = 0) (hd : s.drv_state = .transmitting)
      (hend : s.upc.toNat = s.prog.length) : StepRule s (completeCommand (beginStep s))
  | initDone (hrst : (portsNow s).rst = 0) (hd : s.drv_state = .uninit)
      (hend : s.upc.toNat = s.prog.length) : StepRule s (completeInit (beginStep s))
  | beyond (hrst : (portsNow s).rst = 0) (hd : s.drv_state ≠ .idle) (hlt : s.prog.length < s.upc.toNat) :
      StepRule s (beginStep s)
  | quiet (hrst : (portsNow s).rst = 0) (hd : s.drv_state = .idle) (hv : (portsNow s).cmd_valid = 0) :
      StepRule s (beginStep s)
  | brightnessBegun (hrst : (portsNow s).rst = 0) (hd : s.drv_state = .idle) (hv : (portsNow s).cmd_valid = 1)
      (hop : (portsNow s).cmd_op = 0) (b : Byte) (hb : brightCommand (portsNow s).cmd_level.toInt = .ok b) :
      StepRule s (beginProgram (brightProg b) (latchBrightness (portsNow s).cmd_level (accepting s)))
  | brightnessRaised (hrst : (portsNow s).rst = 0) (hd : s.drv_state = .idle) (hv : (portsNow s).cmd_valid = 1)
      (hop : (portsNow s).cmd_op = 0) (e : ResultCode)
      (hb : brightCommand (portsNow s).cmd_level.toInt = .error e) :
      StepRule s (raiseError e (latchBrightness (portsNow s).cmd_level (accepting s)))
  | textBegun (hrst : (portsNow s).rst = 0) (hd : s.drv_state = .idle) (hv : (portsNow s).cmd_valid = 1)
      (hop : (portsNow s).cmd_op = 1) (a : Assembly) (ha : a = assembleText s.rom (portsNow s).cmd_text)
      (hok : a.code = .ok) :
      StepRule s (beginProgram (textProg a.buf.d0 a.buf.d1 a.buf.d2 a.buf.d3)
        (storeAssembly a (latchText (portsNow s).cmd_text (accepting s))))
  | textRaised (hrst : (portsNow s).rst = 0) (hd : s.drv_state = .idle) (hv : (portsNow s).cmd_valid = 1)
      (hop : (portsNow s).cmd_op = 1) (a : Assembly) (ha : a = assembleText s.rom (portsNow s).cmd_text)
      (hne : a.code ≠ .ok) :
      StepRule s (raiseError a.code (storeAssembly a (latchText (portsNow s).cmd_text (accepting s))))

section

variable {s : State} (hrst : (portsNow s).rst = 0) (hr : s.request = none) (hd : s.drv_state = .idle)
  (hv : (portsNow s).cmd_valid = 1)
include hrst hr hd hv

/-- ACCEPT of SET_BRIGHTNESS. -/
theorem step_accept_brightness (hop : (portsNow s).cmd_op = 0) :
    step s = exec (.setBrightness (portsNow s).cmd_level) (accepting s) := by
  rw [step_idle_with_command hrst hr hd hv, hop, decodeH, if_pos rfl, accepting]

/-- ACCEPT of SET_TEXT. -/
theorem step_accept_text (hop : (portsNow s).cmd_op = 1) :
    step s = exec (.setText (portsNow s).cmd_text) (accepting s) := by
  rw [step_idle_with_command hrst hr hd hv, hop, decodeH, if_neg (by decide), accepting]

end

/-- A step follows its rule. -/
theorem step_of_rule {s t : State} (hr : s.request = none) (h : StepRule s t) : step s = .next t := by
  cases h with
  | reset hrst => exact step_of_reset hrst
  | micro hrst hd op hop => exact step_micro s op hrst hr hd hop
  | commandDone hrst hd hend => exact step_transmitting_ended hrst hr hd hend
  | initDone hrst hd hend => exact step_uninit_ended hrst hr hd hend
  | beyond hrst hd hlt => exact step_running_beyond_program hrst hr hd hlt
  | quiet hrst hd hv => exact step_idle_without_command hrst hr hd (by simp [hv])
  | brightnessBegun hrst hd hv hop b hb =>
    rw [step_accept_brightness hrst hr hd hv hop]
    exact exec_setBrightness_of_ok (s := accepting s) hd hb
  | brightnessRaised hrst hd hv hop e hb =>
    rw [step_accept_brightness hrst hr hd hv hop]
    exact exec_setBrightness_of_error (s := accepting s) hd hb
  | textBegun hrst hd hv hop a ha hok =>
    subst ha
    rw [step_accept_text hrst hr hd hv hop]
    exact exec_setText_of_ok (s := accepting s) hd hok
  | textRaised hrst hd hv hop a ha hne =>
    subst ha
    rw [step_accept_text hrst hr hd hv hop]
    exact exec_setText_of_error (s := accepting s) hd hne

/-- In IDLE a rule applies, whatever the ports carry. -/
theorem exists_rule_idle {s : State} (hrst : (portsNow s).rst = 0) (hd : s.drv_state = .idle) :
    ∃ t, StepRule s t := by
  rcases level_cases (portsNow s).cmd_valid with hv | hv
  · exact ⟨_, .quiet hrst hd hv⟩
  · rcases level_cases (portsNow s).cmd_op with hop | hop
    · cases hb : brightCommand (portsNow s).cmd_level.toInt with
      | ok b => exact ⟨_, .brightnessBegun hrst hd hv hop b hb⟩
      | error e => exact ⟨_, .brightnessRaised hrst hd hv hop e hb⟩
    · by_cases ha : (assembleText s.rom (portsNow s).cmd_text).code = .ok
      · exact ⟨_, .textBegun hrst hd hv hop _ rfl ha⟩
      · exact ⟨_, .textRaised hrst hd hv hop _ rfl ha⟩

/-- At the end of its program a driver that is not IDLE completes. -/
theorem exists_rule_ended {s : State} (hrst : (portsNow s).rst = 0) (hd : s.drv_state ≠ .idle)
    (hend : s.upc.toNat = s.prog.length) : ∃ t, StepRule s t := by
  cases hs : s.drv_state with
  | idle => exact absurd hs hd
  | uninit => exact ⟨_, .initDone hrst hs hend⟩
  | transmitting => exact ⟨_, .commandDone hrst hs hend⟩

/-- Some rule applies in every state. -/
theorem exists_rule (s : State) : ∃ t, StepRule s t := by
  rcases level_cases (portsNow s).rst with hrst | hrst
  · by_cases hd : s.drv_state = .idle
    · exact exists_rule_idle hrst hd
    · rcases lt_trichotomy s.upc.toNat s.prog.length with hlt | hend | hgt
      · exact ⟨_, .micro hrst hd _ (List.getElem?_eq_getElem hlt)⟩
      · exact exists_rule_ended hrst hd hend
      · exact ⟨_, .beyond hrst hd hgt⟩
  · exact ⟨_, .reset hrst⟩

/-- Without an internal request the step is exactly its rules. -/
theorem step_eq_next_iff {s t : State} (hr : s.request = none) : step s = .next t ↔ StepRule s t := by
  constructor
  · intro h
    obtain ⟨t', ht'⟩ := exists_rule s
    rw [step_of_rule hr ht'] at h
    cases h
    exact ht'
  · exact step_of_rule hr

/-- Settles O41: `exec_rule` for the operations, `exists_rule` for the step. -/
theorem everyOperationCompletes : Obligations.EveryOperationCompletes := by
  refine ⟨fun i s => ?_, fun s hr => ?_⟩
  · obtain ⟨t, ht, -⟩ := exec_rule i s
    exact ⟨t, ht⟩
  · obtain ⟨t, ht⟩ := exists_rule s
    exact ⟨t, step_of_rule hr ht⟩

end Sys2Proof.Proofs

namespace Sys2Proof.Proofs

open Sys2Proof.Machine

/-! ### Text assembly (R154 to R158) -/

/-- A counter that does not wrap. -/
theorem toNat_add_one {w : Nat} {x : BitVec w} (h : x.toNat + 1 < 2 ^ w) : (x + 1).toNat = x.toNat + 1 := by
  have hone : 1 % 2 ^ w = 1 := Nat.mod_eq_of_lt (by omega)
  have hadd : (x + 1).toNat = (x.toNat + 1 % 2 ^ w) % 2 ^ w := BitVec.toNat_add x 1
  rw [hadd, hone, Nat.mod_eq_of_lt h]

theorem ofNat_ne_four {k : Nat} (h : k ≤ 3) : BitVec.ofNat 3 k ≠ 4 := by
  intro he
  have ht := congrArg BitVec.toNat he
  simp at ht
  omega

theorem ofNat_succ_ne_zero {k : Nat} (h : k ≤ 3) : BitVec.ofNat 3 (k + 1) ≠ 0 := by
  intro he
  have ht := congrArg BitVec.toNat he
  simp at ht
  omega

theorem ofNat_add_one (k : Nat) : BitVec.ofNat 3 k + 1 = BitVec.ofNat 3 (k + 1) :=
  (BitVec.ofNat_add k 1).symm

theorem ofNat_succ_sub_one (k : Nat) : BitVec.ofNat 3 (k + 1) - 1 = BitVec.ofNat 3 k :=
  sub_eq_iff_eq_add.2 (ofNat_add_one k).symm

section

variable (rom : List Host.Cell)

theorem groupBuffer_nil : groupBuffer rom [] = DigitBuffer.clear := rfl

/-- The next character's pattern falls on a digit that no character reached. -/
theorem groupBuffer_orAt_char {before : List (Byte × Nat)} {c p : Byte} (hlen : before.length ≤ 3)
    (hp : romRead rom c = some p) :
    (groupBuffer rom before).orAt (BitVec.ofNat 3 before.length) p = groupBuffer rom (before ++ [(c, 0)]) := by
  match before with
  | [] => simp [groupBuffer, groupDigit, groupPattern, DigitBuffer.orAt, hp]
  | [_] => simp [groupBuffer, groupDigit, groupPattern, DigitBuffer.orAt, hp]
  | [_, _] => simp [groupBuffer, groupDigit, groupPattern, DigitBuffer.orAt, hp]
  | [_, _, _] => simp [groupBuffer, groupDigit, groupPattern, DigitBuffer.orAt, hp]
  | _ :: _ :: _ :: _ :: _ =>
    simp only [List.length_cons] at hlen
    omega

/-- One or more dots after one of the first three characters. -/
theorem groupBuffer_orAt_dot {before : List (Byte × Nat)} (c : Byte) {n : Nat} (hlen : before.length ≤ 2)
    (hn : n ≠ 0) :
    (groupBuffer rom (before ++ [(c, 0)])).orAt (BitVec.ofNat 3 before.length) Config.dotBit =
      groupBuffer rom (before ++ [(c, n)]) := by
  match before with
  | [] => simp [groupBuffer, groupDigit, groupPattern, DigitBuffer.orAt, hn]
  | [_] => simp [groupBuffer, groupDigit, groupPattern, DigitBuffer.orAt, hn]
  | [_, _] => simp [groupBuffer, groupDigit, groupPattern, DigitBuffer.orAt, hn]
  | _ :: _ :: _ :: _ => simp at hlen

/-- R157: dots after the fourth character leave no mark. -/
theorem groupBuffer_fourth {before : List (Byte × Nat)} (c : Byte) (n : Nat) (hlen : before.length = 3) :
    groupBuffer rom (before ++ [(c, n)]) = groupBuffer rom (before ++ [(c, 0)]) := by
  match before with
  | [_, _, _] => simp [groupBuffer, groupDigit]

/-- The scan of one group moves the cursor to the next digit. -/
theorem scanText_group {before : List (Byte × Nat)} {g : Byte × Nat} (rest : List Byte)
    (hlen : before.length ≤ 3) (hc : g.1 ≠ Config.dotChar) (hp : (romRead rom g.1).isSome = true) :
    scanText rom (g.1 :: (List.replicate g.2 Config.dotChar ++ rest)) (groupBuffer rom before)
        (BitVec.ofNat 3 before.length) =
      scanText rom rest (groupBuffer rom (before ++ [g])) (BitVec.ofNat 3 (before.length + 1)) := by
  obtain ⟨c, n⟩ := g
  obtain ⟨p, hp⟩ := Option.isSome_iff_exists.1 hp
  rw [scanText_char rom _ _ (ofNat_ne_four hlen) hc hp, groupBuffer_orAt_char rom hlen hp, ofNat_add_one]
  rcases Nat.lt_or_eq_of_le hlen with hlt | h3
  · have h2 : before.length ≤ 2 := by omega
    rw [scanText_dots rom rest _ (ofNat_succ_ne_zero hlen) (ofNat_ne_four hlt), ofNat_succ_sub_one]
    by_cases hn : n = 0
    · simp only [hn, if_true]
    · rw [if_neg hn, groupBuffer_orAt_dot rom c h2 hn]
  · rw [h3, groupBuffer_fourth rom c n h3]
    exact (scanText_full rom _ _).trans (scanText_full rom _ _).symm

theorem groupsOk_cons {g : Byte × Nat} {gs : List (Byte × Nat)} :
    GroupsOk rom (g :: gs) ↔ (g.1 ≠ Config.dotChar ∧ (romRead rom g.1).isSome = true) ∧ GroupsOk rom gs :=
  List.forall_mem_cons

/-- The scan of several groups, from the digits that earlier groups filled. -/
theorem scanText_groups {before gs : List (Byte × Nat)} (rest : List Byte) (hok : GroupsOk rom gs)
    (hlen : before.length + gs.length ≤ 4) :
    scanText rom (groupsText gs ++ rest) (groupBuffer rom before) (BitVec.ofNat 3 before.length) =
      scanText rom rest (groupBuffer rom (before ++ gs)) (BitVec.ofNat 3 (before.length + gs.length)) := by
  induction gs generalizing before with
  | nil => simp [groupsText]
  | cons g gs ih =>
    obtain ⟨⟨hc, hp⟩, hgs⟩ := (groupsOk_cons rom).1 hok
    have hlen' : (before ++ [g]).length + gs.length ≤ 4 := by
      simp only [List.length_append, List.length_cons, List.length_nil] at hlen ⊢
      omega
    have hnext := ih hgs hlen'
    rw [groupsText, List.cons_append, List.append_assoc,
      scanText_group rom _ (by simp only [List.length_cons] at hlen; omega) hc hp]
    rw [List.length_append, List.length_singleton] at hnext
    rw [hnext, List.append_assoc, List.singleton_append, List.length_cons]
    congr 2
    omega

/-- ASSEMBLE over groups goes on with what follows them. -/
theorem assembleText_groups {gs : List (Byte × Nat)} (rest : List Byte) (hok : GroupsOk rom gs)
    (hlen : gs.length ≤ 4) :
    assembleText rom (groupsText gs ++ rest) =
      scanText rom rest (groupBuffer rom gs) (BitVec.ofNat 3 gs.length) := by
  have h := scanText_groups rom (before := []) rest hok (by simpa using hlen)
  simpa [assembleText, groupBuffer_nil] using h

theorem assembleText_of_groups {gs : List (Byte × Nat)} {tail : List Byte} (hok : GroupsOk rom gs)
    (hlen : gs.length ≤ 4) (htail : tail = [] ∨ gs.length = 4) :
    assembleText rom (groupsText gs ++ tail) = ⟨groupBuffer rom gs, BitVec.ofNat 3 gs.length, .ok⟩ := by
  rw [assembleText_groups rom tail hok hlen]
  rcases htail with rfl | h4
  · rfl
  · rw [h4]
    exact scanText_full rom tail _

/-- R156, R158: the first character that is no key ends the scan. -/
theorem assembleText_unsupported {gs : List (Byte × Nat)} {c : Byte} (tail : List Byte) (hok : GroupsOk rom gs)
    (hlen : gs.length ≤ 3) (hc : c ≠ Config.dotChar) (hp : romRead rom c = none) :
    assembleText rom (groupsText gs ++ c :: tail) =
      ⟨groupBuffer rom gs, BitVec.ofNat 3 gs.length, .unsupportedCharacter⟩ := by
  rw [assembleText_groups rom (c :: tail) hok (by omega),
    scanText_unsupported rom tail _ (ofNat_ne_four hlen) hc hp]

/-- R155, R158. -/
theorem assembleText_leading_dot {text : List Byte} (h : text.head? = some Config.dotChar) :
    (assembleText rom text).code = .invalidDecimalPointPlacement := by
  obtain ⟨rest, rfl⟩ := List.head?_eq_some_iff.1 h
  rw [assembleText, scanText_leading_dot]

/-- The dots at the head of a text, and the rest. -/
theorem exists_leading_dots (text : List Byte) :
    ∃ (n : Nat) (rest : List Byte),
      text = List.replicate n Config.dotChar ++ rest ∧ rest.head? ≠ some Config.dotChar := by
  induction text with
  | nil => exact ⟨0, [], rfl, by simp⟩
  | cons c text ih =>
    by_cases hc : c = Config.dotChar
    · obtain ⟨n, rest, rfl, hrest⟩ := ih
      exact ⟨n + 1, rest, by rw [hc, List.replicate_succ, List.cons_append], hrest⟩
    · exact ⟨0, c :: text, rfl, by simpa using hc⟩

/-- A text without a leading dot falls into groups, up to `n` of them: it ends there, or the next character is no
key, or the rest is not looked at. -/
theorem exists_groups (n : Nat) {text : List Byte} (h : text.head? ≠ some Config.dotChar) :
    ∃ (gs : List (Byte × Nat)) (rest : List Byte),
      text = groupsText gs ++ rest ∧ GroupsOk rom gs ∧ gs.length ≤ n ∧
        (rest = [] ∨ gs.length = n ∨
          gs.length < n ∧ ∃ c tail, rest = c :: tail ∧ c ≠ Config.dotChar ∧ romRead rom c = none) := by
  have hnil : GroupsOk rom [] := fun _ hg => nomatch hg
  induction n generalizing text with
  | zero => exact ⟨[], text, rfl, hnil, Nat.le_refl 0, .inr (.inl rfl)⟩
  | succ n ih =>
    cases text with
    | nil => exact ⟨[], [], rfl, hnil, Nat.zero_le _, .inl rfl⟩
    | cons c text =>
      have hc : c ≠ Config.dotChar := by simpa using h
      cases hp : romRead rom c with
      | none =>
        exact ⟨[], c :: text, rfl, hnil, Nat.zero_le _, .inr (.inr ⟨Nat.succ_pos n, c, text, rfl, hc, hp⟩)⟩
      | some p =>
        obtain ⟨dots, rest, rfl, hrest⟩ := exists_leading_dots text
        obtain ⟨gs, rest', rfl, hok, hlen, hend⟩ := ih hrest
        refine ⟨(c, dots) :: gs, rest', ?_, (groupsOk_cons rom).2 ⟨⟨hc, by simp [hp]⟩, hok⟩,
          Nat.succ_le_succ hlen, ?_⟩
        · simp [groupsText]
        · simpa only [List.length_cons, Nat.add_right_cancel_iff, Nat.add_lt_add_iff_right] using hend

/-- The three ends ASSEMBLE can come to. -/
theorem assembleText_cases (text : List Byte) :
    text.head? = some Config.dotChar ∨ (assembleText rom text).code = .ok ∨
      ∃ (gs : List (Byte × Nat)) (c : Byte) (tail : List Byte),
        text = groupsText gs ++ c :: tail ∧ GroupsOk rom gs ∧ gs.length ≤ 3 ∧ c ≠ Config.dotChar ∧
          romRead rom c = none := by
  by_cases h : text.head? = some Config.dotChar
  · exact .inl h
  · obtain ⟨gs, rest, rfl, hok, hlen, hend⟩ := exists_groups rom 4 h
    rcases hend with rfl | h4 | ⟨hlt, c, tail, rfl, hc, hp⟩
    · exact .inr (.inl (by rw [assembleText_of_groups rom hok hlen (.inl rfl)]))
    · exact .inr (.inl (by rw [assembleText_of_groups rom hok hlen (.inr h4)]))
    · exact .inr (.inr ⟨gs, c, tail, rfl, hok, by omega, hc, hp⟩)

theorem assembleText_invalidDecimalPoint_iff (text : List Byte) :
    (assembleText rom text).code = .invalidDecimalPointPlacement ↔ text.head? = some Config.dotChar := by
  refine ⟨fun h => ?_, assembleText_leading_dot rom⟩
  rcases assembleText_cases rom text with hdot | hok | ⟨gs, c, tail, rfl, hok, hlen, hc, hp⟩
  · exact hdot
  · rw [hok] at h
    cases h
  · rw [assembleText_unsupported rom tail hok hlen hc hp] at h
    cases h

theorem assembleText_unsupported_iff (text : List Byte) :
    (assembleText rom text).code = .unsupportedCharacter ↔
      ∃ (gs : List (Byte × Nat)) (c : Byte) (tail : List Byte),
        text = groupsText gs ++ c :: tail ∧ GroupsOk rom gs ∧ gs.length ≤ 3 ∧ c ≠ Config.dotChar ∧
        romRead rom c = none ∧
        (assembleText rom text).buf = groupBuffer rom gs ∧
        (assembleText rom text).cursor = BitVec.ofNat 3 gs.length := by
  constructor
  · intro h
    rcases assembleText_cases rom text with hdot | hok | ⟨gs, c, tail, rfl, hok, hlen, hc, hp⟩
    · rw [assembleText_leading_dot rom hdot] at h
      cases h
    · rw [hok] at h
      cases h
    · have ha := assembleText_unsupported rom tail hok hlen hc hp
      exact ⟨gs, c, tail, rfl, hok, hlen, hc, hp, by rw [ha], by rw [ha]⟩
  · rintro ⟨gs, c, tail, rfl, hok, hlen, hc, hp, -, -⟩
    rw [assembleText_unsupported rom tail hok hlen hc hp]

theorem assembleText_ne_invalidBrightnessLevel (text : List Byte) :
    (assembleText rom text).code ≠ .invalidBrightnessLevel := by
  rcases assembleText_cases rom text with hdot | hok | ⟨gs, c, tail, rfl, hok, hlen, hc, hp⟩
  · simp [assembleText_leading_dot rom hdot]
  · simp [hok]
  · simp [assembleText_unsupported rom tail hok hlen hc hp]

end

/-- Settles O30: an induction over the groups, from the digits that earlier groups filled. -/
theorem textInGroupsAssembles : Obligations.TextInGroupsAssembles :=
  fun rom _ _ hok hlen htail => assembleText_of_groups rom hok hlen htail

/-- Settles O31: every text is one of three kinds, and each kind has its result. -/
theorem firstOffendingCharacterIsReported : Obligations.FirstOffendingCharacterIsReported := fun rom text =>
  ⟨assembleText_invalidDecimalPoint_iff rom text, assembleText_unsupported_iff rom text,
    assembleText_ne_invalidBrightnessLevel rom text⟩

/-! ### Bit 7 of the digits (R153, R157) -/

/-- An or touches the fourth digit at index 3 alone. -/
theorem orAt_d3_msb (buf : DigitBuffer) (i : BitVec 3) (p : Byte) (h : buf.d3.msb = false)
    (hp : i = 3 → p.msb = false) : (buf.orAt i p).d3.msb = false := by
  unfold DigitBuffer.orAt
  split_ifs with h0 h1 h2 h3
  · exact h
  · exact h
  · exact h
  · simp [h, hp h3]
  · exact h

theorem cursor_toNat_lt {cursor : BitVec 3} (h : cursor.toNat ≤ 4) (h4 : cursor ≠ 4) : cursor.toNat < 4 :=
  lt_of_le_of_ne h fun he => h4 (BitVec.eq_of_toNat_eq he)

/-- Settles O32: both clauses are kept by every move of the scan. -/
theorem lastDigitNeverCarriesADot : Obligations.LastDigitNeverCarriesADot := by
  intro rom text hrom
  refine scanText_keeps rom (fun buf cursor => buf.d3.msb = false ∧ cursor.toNat ≤ 4) ?_ ?_ text
    DigitBuffer.clear 0 ⟨rfl, Nat.zero_le 4⟩
  · rintro buf cursor ⟨hbuf, hcur⟩ h0 h4
    refine ⟨orAt_d3_msb buf _ _ hbuf fun h3 => absurd ?_ h4, hcur⟩
    exact (sub_eq_iff_eq_add.1 h3).trans (by decide)
  · rintro buf cursor c p ⟨hbuf, hcur⟩ h4 hc hp
    refine ⟨orAt_d3_msb buf _ _ hbuf fun _ => romRead_msb_of_ne_dot hrom hc hp, ?_⟩
    have hlt := cursor_toNat_lt hcur h4
    rw [toNat_add_one (by omega)]
    exact hlt

theorem groupPattern_msb {rom : List Host.Cell} (hrom : fontRomRequirements rom = true) {g : Byte × Nat}
    (hc : g.1 ≠ Config.dotChar) (hp : (romRead rom g.1).isSome = true) :
    (groupPattern rom g).msb = true ↔ 0 < g.2 := by
  obtain ⟨p, hp⟩ := Option.isSome_iff_exists.1 hp
  have hmsb := romRead_msb_of_ne_dot hrom hc hp
  by_cases hn : g.2 = 0
  · simp [groupPattern, hp, hmsb, hn]
  · have hdot : (0x80#8).msb = true := rfl
    simp [groupPattern, hp, hmsb, hn, hdot, Nat.pos_of_ne_zero hn]

theorem groupBuffer_get {rom : List Host.Cell} {gs : List (Byte × Nat)} {k : Nat} {g : Byte × Nat}
    (hk : k ≤ 2) (hg : gs[k]? = some g) : (groupBuffer rom gs).get k = groupPattern rom g := by
  match k with
  | 0 => simp [groupBuffer, DigitBuffer.get, groupDigit, hg]
  | 1 => simp [groupBuffer, DigitBuffer.get, groupDigit, hg]
  | 2 => simp [groupBuffer, DigitBuffer.get, groupDigit, hg]

/-- Settles O33: the digit is the group's pattern, and no key but the dot has bit 7. -/
theorem dotBitShowsExactlyTheDots : Obligations.DotBitShowsExactlyTheDots := by
  intro rom gs hrom hok hlen k g hk hg
  have ha : assembleText rom (groupsText gs) = ⟨groupBuffer rom gs, BitVec.ofNat 3 gs.length, .ok⟩ := by
    simpa using assembleText_of_groups rom (tail := []) hok hlen (.inl rfl)
  obtain ⟨hc, hp⟩ := hok g (List.mem_of_getElem? hg)
  rw [ha, groupBuffer_get hk hg]
  exact groupPattern_msb hrom hc hp

end Sys2Proof.Proofs

namespace Sys2Proof.Proofs

open Sys2Proof.Machine

/-! ### The invariant of R42 -/

/-- One micro-op moves the lines, takes its sample and leaves its event; nothing else changes. -/
theorem doMicro_eq (op : MicroOp) (s : State) :
    doMicro op s = { s with
      scl_o := (endLevels [op] (s.scl_o, s.sda_o)).1
      sda_o := (endLevels [op] (s.scl_o, s.sda_o)).2
      ack := ackAfter [op] s
      draws := s.draws + sampleCount [op]
      trace := s.trace ++ eventsOf [op] s.draws } :=
  runOps_eq [op] s

theorem brightCommand_isBrightByte {level : Int} {b : Byte} (h : brightCommand level = .ok b) :
    IsBrightByte b := by
  by_cases h0 : level ≤ 0
  · rw [brightCommand_blank h0] at h
    cases h
    exact .inl rfl
  · by_cases h8 : level ≤ 8
    · rw [brightCommand_eq_brightByte (by omega) h8] at h
      cases h
      exact .inr (brightByte_high _)
    · rw [brightCommand_error (by omega)] at h
      cases h

theorem isProgram_brightProg {level : Int} {b : Byte} (h : brightCommand level = .ok b) :
    IsProgram (brightProg b) :=
  .inr (.inl ⟨b, brightCommand_isBrightByte h, rfl⟩)

theorem isProgram_textProg (d0 d1 d2 : Byte) {d3 : Byte} (h : d3.msb = false) :
    IsProgram (textProg d0 d1 d2 d3) :=
  .inr (.inr ⟨d0, d1, d2, d3, h, rfl⟩)

/-- R39: every program ends with both outputs at 1. -/
theorem isProgram_endLevels {p : List MicroOp} (h : IsProgram p) (cd : Level × Level) :
    endLevels p cd = (1, 1) := by
  rcases h with rfl | ⟨b, -, rfl⟩ | ⟨d0, d1, d2, d3, -, rfl⟩
  · exact initProg_endLevels cd
  · exact brightProg_endLevels b cd
  · exact textProg_endLevels d0 d1 d2 d3 cd

/-- Every program fits the 9-bit index (R32). -/
theorem isProgram_length {p : List MicroOp} (h : IsProgram p) : p.length < 512 := by
  rcases h with rfl | ⟨b, -, rfl⟩ | ⟨d0, d1, d2, d3, -, rfl⟩ <;> simp

/-- The index does not wrap inside a program. -/
theorem upc_add_one_toNat {s : State} (hlen : s.prog.length < 512) (hlt : s.upc.toNat < s.prog.length) :
    (s.upc + 1).toNat = s.upc.toNat + 1 :=
  toNat_add_one (by omega)

theorem inv_of_atReset {s : State} (h : AtReset s) (hrom : fontRomWf s.rom = true) (hr : s.request = none) :
    Inv s where
  cursor_le := by simp [h.cursor]
  upc_le := by simp [h.upc]
  idle_lines := fun hd => by simp [h.drv_state] at hd
  idle_done := fun hd => by simp [h.drv_state] at hd
  uninit_prog := fun _ => h.prog
  prog_kind := .inl h.prog
  ends_idle := by
    rw [h.prog, h.upc]
    exact initProg_endLevels _
  last_digit := by rw [h.buf]; rfl
  not_counting := h.wcnt
  rom_wf := hrom
  no_request := hr

section

variable {s : State} (h : Inv s)
include h

theorem inv_beginStep : Inv (beginStep s) := { h with }

theorem inv_accepting : Inv (accepting s) := { h with }

theorem inv_latchBrightness (level : BitVec 8) : Inv (latchBrightness level s) := { h with }

theorem inv_latchText (text : List Byte) : Inv (latchText text s) := { h with }

theorem inv_raiseError (e : ResultCode) : Inv (raiseError e s) := { h with }

theorem inv_resetState : Inv (resetState s) :=
  inv_of_atReset (atReset_resetState s) h.rom_wf rfl

theorem inv_storeAssembly (text : List Byte) : Inv (storeAssembly (assembleText s.rom text) s) :=
  have ha := lastDigitNeverCarriesADot s.rom text ((fontRomWf_iff s.rom).1 h.rom_wf).1
  { h with
    cursor_le := ha.2
    last_digit := ha.1 }

theorem inv_beginProgram {p : List MicroOp} (hp : IsProgram p) : Inv (beginProgram p s) :=
  { h with
    upc_le := Nat.zero_le _
    idle_lines := fun hd => nomatch hd
    idle_done := fun hd => nomatch hd
    uninit_prog := fun hd => nomatch hd
    prog_kind := hp
    ends_idle := isProgram_endLevels hp _ }

/-- Where the program has ended, the lines are idle. -/
theorem lines_of_ended (hend : s.upc.toNat = s.prog.length) : s.scl_o = 1 ∧ s.sda_o = 1 := by
  have hlines := h.ends_idle
  rw [hend, List.drop_length] at hlines
  exact Prod.ext_iff.1 hlines

theorem inv_completeCommand (hend : s.upc.toNat = s.prog.length) : Inv (completeCommand s) :=
  have hlines := lines_of_ended h hend
  { h with
    idle_lines := fun _ => hlines
    idle_done := fun _ => hend
    uninit_prog := fun hd => nomatch hd }

theorem inv_completeInit (hend : s.upc.toNat = s.prog.length) : Inv (completeInit s) :=
  have hlines := lines_of_ended h hend
  { h with
    idle_lines := fun _ => hlines
    idle_done := fun _ => hend
    uninit_prog := fun hd => nomatch hd }

/-- MICRO: what the micro-op does to the lines is what the rest of the program no longer has to do. -/
theorem inv_advance_doMicro {op : MicroOp} (hd : s.drv_state ≠ .idle) (hop : s.prog[s.upc.toNat]? = some op) :
    Inv (advance (doMicro op s)) := by
  obtain ⟨hlt, hget⟩ := List.getElem?_eq_some_iff.1 hop
  have hupc := upc_add_one_toNat (isProgram_length h.prog_kind) hlt
  have hrest := h.ends_idle
  rw [List.drop_eq_getElem_cons hlt, hget, ← List.singleton_append, endLevels_append] at hrest
  rw [doMicro_eq]
  exact { h with
    upc_le := hupc.trans_le hlt
    idle_lines := fun hidle => absurd hidle hd
    idle_done := fun hidle => absurd hidle hd
    ends_idle := (congrArg (fun n => endLevels (s.prog.drop n) _) hupc).trans hrest }

end

/-- Settles O39: INIT_PROG leads the lines to idle from any levels, and the default ROM is admitted. -/
theorem invariantHoldsAtReset : Obligations.InvariantHoldsAtReset :=
  ⟨inv_of_atReset atReset_reset fontRom_admitted rfl, fun ins n rom hrom =>
    inv_of_atReset (atReset_resetState { State.reset with inputs := ins, draws := n, rom := rom }) hrom rfl⟩

/-- Settles O40: each rule of the step keeps the invariant. -/
theorem everyStepKeepsTheInvariant : Obligations.EveryStepKeepsTheInvariant := by
  intro s h
  obtain ⟨t, ht⟩ := exists_rule s
  refine ⟨t, step_of_rule h.no_request ht, ?_⟩
  have hb := inv_beginStep h
  have ha := inv_accepting h
  cases ht with
  | reset => exact inv_resetState hb
  | micro _ hd op hop => exact inv_advance_doMicro hb hd hop
  | commandDone _ _ hend => exact inv_completeCommand hb hend
  | initDone _ _ hend => exact inv_completeInit hb hend
  | beyond => exact hb
  | quiet => exact hb
  | brightnessBegun _ _ _ _ b hok =>
    exact inv_beginProgram (inv_latchBrightness ha _) (isProgram_brightProg hok)
  | brightnessRaised => exact inv_raiseError (inv_latchBrightness ha _) _
  | textBegun _ _ _ _ a hassembly =>
    subst hassembly
    have hs := inv_storeAssembly (inv_latchText ha (portsNow s).cmd_text) (portsNow s).cmd_text
    exact inv_beginProgram hs (isProgram_textProg _ _ _ hs.last_digit)
  | textRaised _ _ _ _ a hassembly =>
    subst hassembly
    exact inv_raiseError (inv_storeAssembly (inv_latchText ha _) _) _

end Sys2Proof.Proofs

namespace Sys2Proof.Proofs

open Sys2Proof.Machine

/-! ### Internal requests (R87) -/

/-- An internal request is served before the sequencer, but not before RESET. -/
theorem step_of_request {s : State} {e : Encoded} (hrst : (portsNow s).rst = 0) (hr : s.request = some e) :
    step s = serveRequest e { beginStep s with request := none } := by
  have hr' : (beginStep s).request = some e := hr
  rw [step, stepBody]
  dsimp only
  rw [if_neg (by simp [hrst]), hr']

theorem serveRequest_of_ok {e : Encoded} {i : Instr} (h : decode e = .ok i) (s : State) :
    serveRequest e s = exec i s := by
  simp only [serveRequest, h]

theorem serveRequest_of_error {e : Encoded} {r : DecodeError} (h : decode e = .error r) (s : State) :
    serveRequest e s = .refused (.undefinedEncoding r) := by
  simp only [serveRequest, h]

/-- Settles O5. -/
theorem requestIsDecodedAndExecuted : Obligations.RequestIsDecodedAndExecuted := by
  intro s e hrst hr
  rw [step_of_request hrst hr]
  cases hd : decode e with
  | ok i => exact serveRequest_of_ok hd _
  | error r => exact serveRequest_of_error hd _

/-- What a step answers comes from a rule of the sequencer or from an operation that a request selects. -/
theorem rule_or_exec_of_step {s t : State} (h : step s = .next t) :
    StepRule s t ∨ ∃ i, exec i { beginStep s with request := none } = .next t := by
  rcases level_cases (portsNow s).rst with hrst | hrst
  · cases hr : s.request with
    | none => exact .inl ((step_eq_next_iff hr).1 h)
    | some e =>
      rw [step_of_request hrst hr] at h
      cases hd : decode e with
      | ok i => exact .inr ⟨i, (serveRequest_of_ok hd _).symm.trans h⟩
      | error r =>
        rw [serveRequest_of_error hd] at h
        cases h
  · rw [step_of_reset hrst] at h
    cases h
    exact .inl (.reset hrst)

/-! ### No step writes the font ROM (R51, R68) -/

theorem runOps_rom (ops : List MicroOp) (s : State) : (runOps ops s).rom = s.rom := by
  rw [runOps_eq]

theorem execRule_rom {s t : State} (h : ExecRule s t) : t.rom = s.rom := by
  cases h with
  | ran ops => exact runOps_rom ops s
  | _ => rfl

theorem exec_rom {i : Instr} {s t : State} (h : exec i s = .next t) : t.rom = s.rom := by
  obtain ⟨t', ht, hrule⟩ := exec_rule i s
  rw [ht] at h
  cases h
  exact execRule_rom hrule

theorem stepRule_rom {s t : State} (h : StepRule s t) : t.rom = s.rom := by
  cases h with
  | micro _ _ op _ => exact runOps_rom [op] (beginStep s)
  | _ => rfl

/-- Settles O57: none of the rules, and none of the shared operations they end in, writes `rom`. -/
theorem noStepWritesTheFontRom : Obligations.NoStepWritesTheFontRom := by
  refine ⟨fun i s t h => exec_rom h, fun s t h => ?_⟩
  obtain hrule | ⟨i, hexec⟩ := rule_or_exec_of_step h
  · exact stepRule_rom hrule
  · exact exec_rom (s := { beginStep s with request := none }) hexec

/-! ### The trace and the line outputs (R12, R41) -/

/-- The micro-ops of the trace lead from the reset levels to the line outputs. -/
def TraceLeads (s : State) : Prop := endLevels (microOps s.trace) (1, 1) = lines s

/-- RESET empties the trace and puts the lines at 1. -/
theorem traceLeads_resetState (s : State) : TraceLeads (resetState s) := rfl

section

variable {s : State} (h : TraceLeads s)
include h

theorem traceLeads_runOps (ops : List MicroOp) : TraceLeads (runOps ops s) := by
  have hs : endLevels (microOps s.trace) (1, 1) = (s.scl_o, s.sda_o) := h
  rw [runOps_eq]
  show endLevels (microOps (s.trace ++ eventsOf ops s.draws)) (1, 1) = endLevels ops (s.scl_o, s.sda_o)
  rw [microOps_append, microOps_eventsOf, endLevels_append, hs]

/-- An event of the host is no micro-op. -/
theorem traceLeads_hostEvent {t : State} {e : Event} (he : e.microOp = none)
    (htrace : t.trace = s.trace ++ [e]) (hlines : lines t = lines s) : TraceLeads t := by
  have hm : microOps [e] = [] := List.filterMap_cons_none he
  rw [TraceLeads, htrace, microOps_append, hm, List.append_nil, hlines]
  exact h

theorem traceLeads_raiseError (e : ResultCode) : TraceLeads (raiseError e s) :=
  traceLeads_hostEvent h (e := .response e) rfl rfl rfl

theorem traceLeads_completeCommand : TraceLeads (completeCommand s) :=
  traceLeads_hostEvent h (e := .response .ok) rfl rfl rfl

theorem traceLeads_latchBrightness (level : BitVec 8) : TraceLeads (latchBrightness level s) :=
  traceLeads_hostEvent h (e := .acceptBrightness level) rfl rfl rfl

theorem traceLeads_latchText (text : List Byte) : TraceLeads (latchText text s) :=
  traceLeads_hostEvent h (e := .acceptText text) rfl rfl rfl

theorem traceLeads_execRule {t : State} (ht : ExecRule s t) : TraceLeads t := by
  cases ht with
  | ran ops => exact traceLeads_runOps h ops
  | returned | assembled | initLoaded => exact h
  | raised e => exact traceLeads_raiseError h e
  | assemblyRaised a e => exact traceLeads_raiseError (s := storeAssembly a s) h e
  | brightnessBegun level p => exact traceLeads_latchBrightness h level
  | brightnessRaised level e => exact traceLeads_raiseError (traceLeads_latchBrightness h level) e
  | textBegun text a p => exact traceLeads_latchText h text
  | textRaised text a e =>
    exact traceLeads_raiseError (s := storeAssembly a (latchText text s)) (traceLeads_latchText h text) e

theorem traceLeads_exec {i : Instr} {t : State} (ht : exec i s = .next t) : TraceLeads t := by
  obtain ⟨t', ht', hrule⟩ := exec_rule i s
  rw [ht'] at ht
  cases ht
  exact traceLeads_execRule h hrule

theorem traceLeads_stepRule {t : State} (ht : StepRule s t) : TraceLeads t := by
  have hb : TraceLeads (beginStep s) := h
  have ha : TraceLeads (accepting s) := h
  cases ht with
  | reset => exact traceLeads_resetState _
  | micro _ _ op _ => exact traceLeads_runOps hb [op]
  | commandDone => exact traceLeads_completeCommand hb
  | initDone | beyond | quiet => exact h
  | brightnessBegun => exact traceLeads_latchBrightness ha _
  | brightnessRaised => exact traceLeads_raiseError (traceLeads_latchBrightness ha _) _
  | textBegun => exact traceLeads_latchText ha _
  | textRaised _ _ _ _ a =>
    exact traceLeads_raiseError (s := storeAssembly a (latchText _ (accepting s))) (traceLeads_latchText ha _) _

end

/-- Settles O58: a list of micro-ops moves the lines as its events say, and nothing else moves them. -/
theorem everyStepKeepsTheTraceAtTheOutputs : Obligations.EveryStepKeepsTheTraceAtTheOutputs := by
  refine ⟨rfl, fun s t h hstep => ?_⟩
  obtain hrule | ⟨i, hexec⟩ := rule_or_exec_of_step hstep
  · exact traceLeads_stepRule h hrule
  · exact traceLeads_exec (s := { beginStep s with request := none }) h hexec

/-! ### No acknowledgement is acted on (R122, R193) -/

/-- A state with other answers of the data line. -/
def withAnswers (s : State) (ack : Level) (draws : Nat) (trace : List Event) : State :=
  { s with ack := ack, draws := draws, trace := trace }

theorem sameButAck_iff {s t : State} :
    SameButAck s t ↔ ∃ (ack : Level) (draws : Nat) (trace : List Event),
      t = withAnswers s ack draws trace ∧ s.trace.map Event.blind = trace.map Event.blind := by
  constructor
  · rintro ⟨hrest, htrace⟩
    exact ⟨_, _, _, hrest, htrace⟩
  · rintro ⟨ack, draws, trace, rfl, htrace⟩
    exact ⟨rfl, htrace⟩

section

variable {s t : State} (h : SameButAck s t)
include h

/-- An update that neither reads the answers nor leaves an event. -/
theorem sameButAck_of_silent (f : State → State)
    (hf : ∀ s ack draws trace, f (withAnswers s ack draws trace) = withAnswers (f s) ack draws trace)
    (htrace : ∀ s, (f s).trace = s.trace) : SameButAck (f s) (f t) := by
  obtain ⟨ack, draws, trace, rfl, hblind⟩ := sameButAck_iff.1 h
  exact sameButAck_iff.2 ⟨ack, draws, trace, hf s ack draws trace, by rw [htrace, hblind]⟩

/-- An update that does not read the answers and leaves one event. -/
theorem sameButAck_of_event (f : State → State) (e : Event)
    (hf : ∀ s ack draws trace, f (withAnswers s ack draws trace) = withAnswers (f s) ack draws (trace ++ [e]))
    (htrace : ∀ s, (f s).trace = s.trace ++ [e]) : SameButAck (f s) (f t) := by
  obtain ⟨ack, draws, trace, rfl, hblind⟩ := sameButAck_iff.1 h
  exact sameButAck_iff.2 ⟨ack, draws, trace ++ [e], hf s ack draws trace, by
    rw [htrace, List.map_append, List.map_append, hblind]⟩

theorem sameButAck_beginStep : SameButAck (beginStep s) (beginStep t) :=
  sameButAck_of_silent h beginStep (fun _ _ _ _ => rfl) fun _ => rfl

theorem sameButAck_accepting : SameButAck (accepting s) (accepting t) :=
  sameButAck_of_silent h accepting (fun _ _ _ _ => rfl) fun _ => rfl

theorem sameButAck_advance : SameButAck (advance s) (advance t) :=
  sameButAck_of_silent h advance (fun _ _ _ _ => rfl) fun _ => rfl

theorem sameButAck_completeInit : SameButAck (completeInit s) (completeInit t) :=
  sameButAck_of_silent h completeInit (fun _ _ _ _ => rfl) fun _ => rfl

theorem sameButAck_beginProgram (p : List MicroOp) : SameButAck (beginProgram p s) (beginProgram p t) :=
  sameButAck_of_silent h (beginProgram p) (fun _ _ _ _ => rfl) fun _ => rfl

theorem sameButAck_storeAssembly (a : Assembly) : SameButAck (storeAssembly a s) (storeAssembly a t) :=
  sameButAck_of_silent h (storeAssembly a) (fun _ _ _ _ => rfl) fun _ => rfl

theorem sameButAck_completeCommand : SameButAck (completeCommand s) (completeCommand t) :=
  sameButAck_of_event h completeCommand (.response .ok) (fun _ _ _ _ => rfl) fun _ => rfl

theorem sameButAck_raiseError (e : ResultCode) : SameButAck (raiseError e s) (raiseError e t) :=
  sameButAck_of_event h (raiseError e) (.response e) (fun _ _ _ _ => rfl) fun _ => rfl

theorem sameButAck_latchBrightness (level : BitVec 8) :
    SameButAck (latchBrightness level s) (latchBrightness level t) :=
  sameButAck_of_event h (latchBrightness level) (.acceptBrightness level) (fun _ _ _ _ => rfl) fun _ => rfl

theorem sameButAck_latchText (text : List Byte) : SameButAck (latchText text s) (latchText text t) :=
  sameButAck_of_event h (latchText text) (.acceptText text) (fun _ _ _ _ => rfl) fun _ => rfl

/-- RESET forgets the answers but for the count of draws. -/
theorem sameButAck_resetState : SameButAck (resetState s) (resetState t) := by
  obtain ⟨_, _, _, rfl, -⟩ := sameButAck_iff.1 h
  exact ⟨rfl, rfl⟩

/-- A SAMPLE in each may read another level. -/
theorem sameButAck_takeSample : SameButAck (takeSample s) (takeSample t) := by
  obtain ⟨ack, draws, trace, rfl, hblind⟩ := sameButAck_iff.1 h
  refine ⟨rfl, ?_⟩
  show (s.trace ++ [Event.sample _]).map Event.blind = (trace ++ [Event.sample _]).map Event.blind
  rw [List.map_append, List.map_append, hblind]
  rfl

theorem sameButAck_doMicro (op : MicroOp) : SameButAck (doMicro op s) (doMicro op t) := by
  cases op with
  | sda v => exact sameButAck_of_event h (doMicro (.sda v)) (.sda v) (fun _ _ _ _ => rfl) fun _ => rfl
  | scl v => exact sameButAck_of_event h (doMicro (.scl v)) (.scl v) (fun _ _ _ _ => rfl) fun _ => rfl
  | wait n => exact sameButAck_of_event h (doMicro (.wait n)) (.wait n) (fun _ _ _ _ => rfl) fun _ => rfl
  | sample => exact sameButAck_takeSample h

/-- The rule that applies to one of the two states applies to the other: no rule asks for `ack`, the draws or the
trace. -/
theorem sameButAck_stepRule {s' : State} (hs : StepRule s s') : ∃ t', SameButAck s' t' ∧ StepRule t t' := by
  have hb := sameButAck_beginStep h
  have ha := sameButAck_accepting h
  obtain ⟨ack, draws, trace, rfl, -⟩ := sameButAck_iff.1 h
  set t := withAnswers s ack draws trace
  cases hs with
  | reset hrst => exact ⟨_, sameButAck_resetState hb,
      .reset (s := t) hrst⟩
  | micro hrst hd op hop => exact ⟨_, sameButAck_advance (sameButAck_doMicro hb op),
      .micro (s := t) hrst hd op hop⟩
  | commandDone hrst hd hend => exact ⟨_, sameButAck_completeCommand hb,
      .commandDone (s := t) hrst hd hend⟩
  | initDone hrst hd hend => exact ⟨_, sameButAck_completeInit hb,
      .initDone (s := t) hrst hd hend⟩
  | beyond hrst hd hlt => exact ⟨_, hb,
      .beyond (s := t) hrst hd hlt⟩
  | quiet hrst hd hv => exact ⟨_, hb,
      .quiet (s := t) hrst hd hv⟩
  | brightnessBegun hrst hd hv hop b hok =>
    exact ⟨_, sameButAck_beginProgram (sameButAck_latchBrightness ha _) _,
      .brightnessBegun (s := t) hrst hd hv hop b hok⟩
  | brightnessRaised hrst hd hv hop e herr =>
    exact ⟨_, sameButAck_raiseError (sameButAck_latchBrightness ha _) _,
      .brightnessRaised (s := t) hrst hd hv hop e herr⟩
  | textBegun hrst hd hv hop a hassembly hok =>
    exact ⟨_, sameButAck_beginProgram (sameButAck_storeAssembly (sameButAck_latchText ha _) a) _,
      .textBegun (s := t) hrst hd hv hop a hassembly hok⟩
  | textRaised hrst hd hv hop a hassembly hne =>
    exact ⟨_, sameButAck_raiseError (sameButAck_storeAssembly (sameButAck_latchText ha _) a) _,
      .textRaised (s := t) hrst hd hv hop a hassembly hne⟩

end

/-- R24: the step reads every field of the ports but `scl_i`. -/
theorem step_scl_i (s : State) (p : Inputs) (level : Level) (rest : List Inputs) :
    step { s with inputs := { p with scl_i := level } :: rest } = step { s with inputs := p :: rest } := rfl

/-- Settles O45: the two runs follow one rule, and what it does to one state it does to the other. -/
theorem theAckIsNeverActedOn : Obligations.TheAckIsNeverActedOn := by
  refine ⟨fun s t hr h => ?_, step_scl_i⟩
  obtain ⟨s', hs⟩ := exists_rule s
  obtain ⟨t', hst, ht⟩ := sameButAck_stepRule h hs
  have hr' : t.request = none := by
    rw [h.rest]
    exact hr
  exact ⟨s', t', step_of_rule hr hs, step_of_rule hr' ht, hst⟩

end Sys2Proof.Proofs

namespace Sys2Proof.Proofs

open Sys2Proof.Machine

/-! ### The step relation (R40) -/

/-- What a failed SET_BRIGHTNESS leaves. -/
theorem raiseError_latchBrightness (e : ResultCode) (level : BitVec 8) (s : State) :
    raiseError e (latchBrightness level s) = { s with
      op_l := 0, level_l := level, status := e, rsp_valid := 1
      trace := s.trace ++ [.acceptBrightness level, .response e] } := by
  simp [raiseError, latchBrightness]

/-- What a failed SET_TEXT leaves. -/
theorem raiseError_latchText (e : ResultCode) (a : Assembly) (text : List Byte) (s : State) :
    raiseError e (storeAssembly a (latchText text s)) = { s with
      op_l := 1, text_l := text, buf := a.buf, cursor := a.cursor, status := e, rsp_valid := 1
      trace := s.trace ++ [.acceptText text, .response e] } := by
  simp [raiseError, storeAssembly, latchText]

/-- Settles O3: each clause is the effect of its rule written out. -/
theorem stepRelationOfTheSequencer : Obligations.StepRelationOfTheSequencer := by
  refine fun s => ⟨fun hrst => ⟨_, step_of_reset hrst, atReset_resetState _⟩, fun hrst hr =>
    ⟨fun hd op hop => ?_, fun hd hend => step_transmitting_ended hrst hr hd hend,
      fun hd hend => step_uninit_ended hrst hr hd hend, fun hd hv hop => ?_, fun hd hv hop => ?_,
      fun hd hv => step_of_rule hr (.quiet hrst hd hv),
      fun hd hlt => step_running_beyond_program hrst hr hd hlt⟩⟩
  · rw [step_micro s op hrst hr hd hop]
    cases op <;> rfl
  · rw [levelOf]
    cases hb : brightCommand (portsNow s).cmd_level.toInt with
    | ok b => exact step_of_rule hr (.brightnessBegun hrst hd hv hop b hb)
    | error e =>
      rw [step_of_rule hr (.brightnessRaised hrst hd hv hop e hb), raiseError_latchBrightness]
      rfl
  · dsimp only
    by_cases ha : (assembleText s.rom (portsNow s).cmd_text).code = .ok
    · rw [step_of_rule hr (.textBegun hrst hd hv hop _ rfl ha), if_pos ha]
      rfl
    · rw [step_of_rule hr (.textRaised hrst hd hv hop _ rfl ha), if_neg ha, raiseError_latchText]
      rfl

/-! ### Commands offered while busy (R178) -/

theorem betweenPrograms_busy {s : State} (hd : s.drv_state ≠ .idle) (p q : Inputs) :
    betweenPrograms p s = betweenPrograms q s := by
  cases h : s.drv_state with
  | idle => exact absurd h hd
  | uninit => simp only [betweenPrograms, h]
  | transmitting => simp only [betweenPrograms, h]

theorem sequencerStep_busy {s : State} (hd : s.drv_state ≠ .idle) (p q : Inputs) :
    sequencerStep p s = sequencerStep q s := by
  cases h : nextOp s with
  | none => simp only [sequencerStep, h, betweenPrograms_busy hd p q]
  | some op => simp only [sequencerStep, h]

/-- Without reset a busy driver does not look at its ports. -/
theorem step_busy_ports {s : State} (hd : s.drv_state ≠ .idle) {p q : Inputs} (rest : List Inputs)
    (hp : p.rst = 0) (hq : q.rst = 0) :
    step { s with inputs := p :: rest } = step { s with inputs := q :: rest } := by
  by_cases hr : s.request = none
  · rw [step_of_quiet { s with inputs := p :: rest } hp hr, step_of_quiet { s with inputs := q :: rest } hq hr]
    exact sequencerStep_busy (s := beginStep { s with inputs := p :: rest }) hd p q
  · obtain ⟨e, he⟩ := Option.ne_none_iff_exists'.1 hr
    rw [step_of_request (s := { s with inputs := p :: rest }) hp he,
      step_of_request (s := { s with inputs := q :: rest }) hq he]
    rfl

/-- Settles O38. -/
theorem commandOfferedWhileBusyIsIgnored : Obligations.CommandOfferedWhileBusyIsIgnored := fun _ hd =>
  ⟨exec_setBrightness_busy hd, exec_setText_busy hd, fun _ _ rest hp hq => step_busy_ports hd rest hp hq⟩

/-! ### Words of the opcode table (R86, R87) -/

/-- The state in which a placed word is executed. -/
def servingState (e : Encoded) (s : State) : State :=
  match e with
  | .h op level text => { s with
      rsp_valid := 0, request := none, drv_state := .idle, op_l := op, level_l := level, text_l := text }
  | _ => { s with rsp_valid := 0, request := none }

theorem step_placeCommand (op : BitVec 1) (level : BitVec 8) (text : List Byte) (s : State) :
    step (placeCommand op level text s) =
      serveRequest (.h op level text) (servingState (.h op level text) s) := by
  have hserve : serveRequest (.h op level text) = exec (decodeH op level text) :=
    funext (serveRequest_of_ok rfl)
  rw [hserve]
  exact step_idle_with_command (s := placeCommand op level text s) rfl rfl rfl rfl

theorem step_placeRequest (e : Encoded) (s : State) :
    step (placeRequest e s) = serveRequest e { s with rsp_valid := 0, request := none } :=
  step_of_request (s := placeRequest e s) rfl rfl

theorem step_placeWord (e : Encoded) (s : State) :
    step (placeWord e s) = serveRequest e (servingState e s) := by
  cases e with
  | h op level text => exact step_placeCommand op level text s
  | _ => exact step_placeRequest _ s

/-- Settles O4: the placed word is served, by its format, from the port or as a request. -/
theorem stepRunsThePlacedWord : Obligations.StepRunsThePlacedWord := by
  intro s nbits w
  have hstep : step (s.withFetchWord nbits w) = _ := step_placeWord (tableWord nbits w) s
  cases hd : decode (tableWord nbits w) with
  | ok i =>
    have hword : decodeTableWord nbits w = some i := by simp only [decodeTableWord, hd]
    refine ⟨fun j hj => ?_, fun hnone => ?_⟩
    · cases hword.symm.trans hj
      exact hstep.trans (serveRequest_of_ok hd _)
    · cases hword.symm.trans hnone
  | error r =>
    have hword : decodeTableWord nbits w = none := by simp only [decodeTableWord, hd]
    refine ⟨fun j hj => ?_, fun _ => ⟨r, hstep.trans (serveRequest_of_error hd _)⟩⟩
    cases hword.symm.trans hj

/-! ### Responses (R37, R179) -/

/-- The response the next step gives, if it gives one. -/
def responseOf (s : State) : Option ResultCode :=
  match s.drv_state with
  | .uninit => none
  | .transmitting => if s.upc.toNat = s.prog.length then some .ok else none
  | .idle =>
    if (portsNow s).cmd_valid = 1 then
      if (portsNow s).cmd_op = 0 then
        if 9 ≤ (portsNow s).cmd_level.toInt then some .invalidBrightnessLevel else none
      else
        if (assembleText s.rom (portsNow s).cmd_text).code = .ok then none
        else some (assembleText s.rom (portsNow s).cmd_text).code
    else none

theorem not_nine_le_of_brightCommand_ok {level : Int} {b : Byte} (h : brightCommand level = .ok b) :
    ¬ 9 ≤ level := by
  intro h9
  cases (brightCommand_error h9).symm.trans h

theorem brightCommand_eq_error {level : Int} {e : ResultCode} (h : brightCommand level = .error e) :
    9 ≤ level ∧ e = .invalidBrightnessLevel := by
  obtain ⟨-, b, hb⟩ | ⟨h9, hb⟩ := brightCommand_cases level
  · cases hb.symm.trans h
  · cases hb.symm.trans h
    exact ⟨h9, rfl⟩

/-- A step pulses exactly for the response it gives, and writes the status with it alone. -/
theorem stepRule_response {s t : State} (hrst : (portsNow s).rst = 0) (h : StepRule s t) :
    (responseOf s = none ∧ t.rsp_valid = 0 ∧ t.status = s.status) ∨
      (responseOf s = some t.status ∧ t.rsp_valid = 1) := by
  cases h with
  | reset hrst' =>
    rw [hrst] at hrst'
    cases hrst'
  | micro _ hd op hop =>
    obtain ⟨hlt, -⟩ := List.getElem?_eq_some_iff.1 hop
    refine .inl ⟨?_, by rw [doMicro_eq]; exact ⟨rfl, rfl⟩⟩
    cases hs : s.drv_state with
    | idle => exact absurd hs hd
    | uninit => simp only [responseOf, hs]
    | transmitting => simp only [responseOf, hs, if_neg hlt.ne]
  | commandDone _ hd hend => exact .inr ⟨by simp [responseOf, hd, hend], rfl⟩
  | initDone _ hd => exact .inl ⟨by simp only [responseOf, hd], rfl, rfl⟩
  | beyond _ hd hlt =>
    refine .inl ⟨?_, rfl, rfl⟩
    cases hs : s.drv_state with
    | idle => exact absurd hs hd
    | uninit => simp only [responseOf, hs]
    | transmitting => simp only [responseOf, hs, if_neg hlt.ne']
  | quiet _ hd hv => exact .inl ⟨by simp [responseOf, hd, hv], rfl, rfl⟩
  | brightnessBegun _ hd hv hop b hb =>
    have h9 := not_nine_le_of_brightCommand_ok hb
    exact .inl ⟨by simp only [responseOf, hd, hv, hop, if_true, if_neg h9], rfl, rfl⟩
  | brightnessRaised _ hd hv hop e hb =>
    obtain ⟨h9, rfl⟩ := brightCommand_eq_error hb
    exact .inr ⟨by simp [responseOf, hd, hv, hop, h9], rfl⟩
  | textBegun _ hd hv hop a ha hok =>
    subst ha
    exact .inl ⟨by simp [responseOf, hd, hv, hop, hok], rfl, rfl⟩
  | textRaised _ hd hv hop a ha hne =>
    subst ha
    exact .inr ⟨by simp [responseOf, hd, hv, hop, hne], rfl⟩

theorem responseOf_isSome_iff (s : State) :
    (responseOf s).isSome = true ↔
      (s.drv_state = .transmitting ∧ s.upc.toNat = s.prog.length) ∨
      (s.drv_state = .idle ∧ (portsNow s).cmd_valid = 1 ∧
        (((portsNow s).cmd_op = 0 ∧ 9 ≤ (portsNow s).cmd_level.toInt) ∨
          ((portsNow s).cmd_op = 1 ∧ (assembleText s.rom (portsNow s).cmd_text).code ≠ .ok))) := by
  cases hd : s.drv_state with
  | uninit => simp [responseOf, hd]
  | transmitting => simp [responseOf, hd]
  | idle =>
    rcases level_cases (portsNow s).cmd_valid with hv | hv
    · simp [responseOf, hd, hv]
    · rcases level_cases (portsNow s).cmd_op with hop | hop
      · simp [responseOf, hd, hv, hop]
      · by_cases ha : (assembleText s.rom (portsNow s).cmd_text).code = .ok
        · simp [responseOf, hd, hv, hop, ha]
        · simp [responseOf, hd, hv, hop, ha]

theorem responseOf_transmitting {s : State} {c : ResultCode} (hd : s.drv_state = .transmitting)
    (h : responseOf s = some c) : c = .ok := by
  simp only [responseOf, hd, Option.ite_none_right_eq_some, Option.some.injEq] at h
  exact h.2.symm

theorem responseOf_setBrightness {s : State} {c : ResultCode} (hd : s.drv_state = .idle)
    (hop : (portsNow s).cmd_op = 0) (h : responseOf s = some c) : c = .invalidBrightnessLevel := by
  simp only [responseOf, hd, hop, if_true, Option.ite_none_right_eq_some, Option.some.injEq] at h
  exact h.2.2.symm

theorem responseOf_setText {s : State} {c : ResultCode} (hd : s.drv_state = .idle)
    (hop : (portsNow s).cmd_op = 1) (h : responseOf s = some c) :
    c = (assembleText s.rom (portsNow s).cmd_text).code := by
  have h0 : ¬ (portsNow s).cmd_op = 0 := by simp [hop]
  simp only [responseOf, hd, if_neg h0, Option.ite_none_right_eq_some, Option.ite_none_left_eq_some,
    Option.some.injEq] at h
  exact h.2.2.symm

/-- Settles O43: the pulse and the status are those of `responseOf`. -/
theorem eachResponseIsOnePulse : Obligations.EachResponseIsOnePulse := by
  intro s t hr hrst h
  have hiff := responseOf_isSome_iff s
  obtain ⟨hnone, hv, hs⟩ | ⟨hsome, hv⟩ := stepRule_response hrst ((step_eq_next_iff hr).1 h)
  · have h0 : t.rsp_valid ≠ 1 := by simp [hv]
    rw [← hiff, hnone]
    exact ⟨iff_of_false h0 (by simp), fun _ => hs, fun h1 => absurd h1 h0, fun h1 => absurd h1 h0,
      fun h1 => absurd h1 h0⟩
  · rw [← hiff, hsome]
    exact ⟨iff_of_true hv rfl, fun h0 => by simp [hv] at h0,
      fun _ hd => responseOf_transmitting hd hsome,
      fun _ hd hop => responseOf_setBrightness hd hop hsome, fun _ hd hop => responseOf_setText hd hop hsome⟩

/-! ### In IDLE no line moves (R67) -/

/-- Settles O44: in IDLE a step leaves at most an acceptance and a response in the trace. -/
theorem linesMoveOnlyInAProgram : Obligations.LinesMoveOnlyInAProgram := by
  intro s t hr hrst hd h
  cases (step_eq_next_iff hr).1 h with
  | reset hrst' =>
    rw [hrst] at hrst'
    cases hrst'
  | micro _ hd' | beyond _ hd' => exact absurd hd hd'
  | commandDone _ hd' | initDone _ hd' =>
    rw [hd] at hd'
    cases hd'
  | quiet => exact ⟨rfl, rfl, rfl, rfl, [], (List.append_nil _).symm, rfl⟩
  | brightnessBegun => exact ⟨rfl, rfl, rfl, rfl, [.acceptBrightness _], rfl, rfl⟩
  | brightnessRaised _ _ _ _ e =>
    rw [raiseError_latchBrightness]
    exact ⟨rfl, rfl, rfl, rfl, [.acceptBrightness _, .response e], rfl, rfl⟩
  | textBegun => exact ⟨rfl, rfl, rfl, rfl, [.acceptText _], rfl, rfl⟩
  | textRaised _ _ _ _ a =>
    rw [raiseError_latchText]
    exact ⟨rfl, rfl, rfl, rfl, [.acceptText _, .response a.code], rfl, rfl⟩

end Sys2Proof.Proofs

namespace Sys2Proof.Proofs

open Sys2Proof.Machine

/-! ### Inputs without reset -/

/-- Where `rst` is not asserted for `n` steps, it is not at the step after `k` of them. -/
theorem portsNow_rst_of_noReset {n k : Nat} {s t : State} (h : NoReset n s) (hk : k < n)
    (ht : t.inputs = s.inputs.drop k) : (portsNow t).rst = 0 := by
  rw [portsNow, ht]
  by_cases hlt : k < s.inputs.length
  · rw [List.drop_eq_getElem_cons hlt]
    exact h _ (List.mem_take_iff_getElem.2 ⟨k, by omega, rfl⟩)
  · rw [List.drop_of_length_le (by omega)]
    rfl

theorem noReset_of_drop {n k : Nat} {s t : State} (h : NoReset (k + n) s)
    (ht : t.inputs = s.inputs.drop k) : NoReset n t := by
  intro p hp
  rw [ht, List.take_drop] at hp
  exact h p (List.mem_of_mem_drop hp)

/-! ### A program runs in list order (R40 MICRO) -/

/-- The state after the next `k` micro-ops of the program that runs. -/
def afterOps (k : Nat) (s : State) : State :=
  { runOps ((s.prog.drop s.upc.toNat).take k) s with
    upc := s.upc + BitVec.ofNat 9 k
    inputs := s.inputs.drop k
    rsp_valid := if k = 0 then s.rsp_valid else 0 }

theorem runOps_prog (ops : List MicroOp) (s : State) : (runOps ops s).prog = s.prog := by
  rw [runOps_eq]

theorem runOps_drv_state (ops : List MicroOp) (s : State) : (runOps ops s).drv_state = s.drv_state := by
  rw [runOps_eq]

theorem runOps_request (ops : List MicroOp) (s : State) : (runOps ops s).request = s.request := by
  rw [runOps_eq]

theorem afterOps_zero (s : State) : afterOps 0 s = s := by
  simp [afterOps, runOps]

theorem afterOps_upc_toNat {s : State} {k : Nat} (hle : s.upc.toNat + k < 512) :
    (afterOps k s).upc.toNat = s.upc.toNat + k := by
  show (s.upc + BitVec.ofNat 9 k).toNat = s.upc.toNat + k
  rw [BitVec.toNat_add, BitVec.toNat_ofNat]
  omega

/-- One more micro-op. -/
theorem afterOps_succ {s : State} {k : Nat} {op : MicroOp} (hop : s.prog[s.upc.toNat + k]? = some op) :
    advance (doMicro op (beginStep (afterOps k s))) = afterOps (k + 1) s := by
  have htake : (s.prog.drop s.upc.toNat).take (k + 1) = (s.prog.drop s.upc.toNat).take k ++ [op] := by
    rw [List.take_add_one, List.getElem?_drop, hop, Option.toList_some]
  have hupc : s.upc + BitVec.ofNat 9 k + 1 = s.upc + BitVec.ofNat 9 (k + 1) := by
    rw [BitVec.ofNat_add, BitVec.add_assoc]
    rfl
  rw [afterOps, afterOps, htake, runOps_append, if_neg (Nat.succ_ne_zero k), ← hupc, ← List.tail_drop]
  cases op <;> rfl

section

variable {s : State} (hr : s.request = none) (hd : s.drv_state ≠ .idle) (hlen : s.prog.length < 512)
include hr hd hlen

theorem step_afterOps {n k : Nat} (hno : NoReset n s) (hkn : k < n) (hk : s.upc.toNat + k < s.prog.length) :
    step (afterOps k s) = .next (afterOps (k + 1) s) := by
  have hop : s.prog[s.upc.toNat + k]? = some s.prog[s.upc.toNat + k] := List.getElem?_eq_getElem hk
  have hop' : (afterOps k s).prog[(afterOps k s).upc.toNat]? = some s.prog[s.upc.toNat + k] := by
    rw [afterOps_upc_toNat (by omega)]
    exact (congrArg (·[s.upc.toNat + k]?) (runOps_prog _ s)).trans hop
  rw [step_micro (afterOps k s) _ (portsNow_rst_of_noReset hno hkn rfl) ((runOps_request _ s).trans hr)
    (fun h => hd ((runOps_drv_state _ s).symm.trans h)) hop', afterOps_succ hop]

theorem runSteps_afterOps {k : Nat} (hno : NoReset k s) (hk : s.upc.toNat + k ≤ s.prog.length) :
    runSteps k s = .next (afterOps k s) := by
  induction k with
  | zero => rw [afterOps_zero, runSteps]
  | succ k ih =>
    have hno' : NoReset k s := fun p hp => hno p (List.take_subset_take_left _ (Nat.le_succ k) hp)
    rw [runSteps_add (ih hno' (by omega)),
      runSteps_succ (step_afterOps hr hd hlen hno (Nat.lt_succ_self k) (by omega)), runSteps]

/-- A whole program runs to its end, from its first micro-op. -/
theorem runSteps_program (hupc : s.upc = 0) (hpos : s.prog.length ≠ 0) (hno : NoReset s.prog.length s) :
    runSteps s.prog.length s = .next { runOps s.prog s with
      upc := BitVec.ofNat 9 s.prog.length
      inputs := s.inputs.drop s.prog.length
      rsp_valid := 0 } := by
  rw [runSteps_afterOps hr hd hlen hno (by simp [hupc]), afterOps, if_neg hpos, hupc]
  simp

end

/-- Settles O46: an induction over the count of steps. -/
theorem stepsExecuteTheProgramInOrder : Obligations.StepsExecuteTheProgramInOrder := by
  intro s k hr hd hlen hpos hk hno
  rw [runSteps_afterOps hr hd hlen hno hk, afterOps, if_neg (by omega)]

/-! ### Initialization and the two commands run to completion (R171, R173, R174) -/

theorem initProg_sampleCount : sampleCount initProg = 2 := initSeqOps_sampleCount

theorem runSteps_one {s t : State} (h : step s = .next t) : runSteps 1 s = .next t := by
  rw [runSteps_succ h, runSteps]

theorem noReset_mono {m n : Nat} {s : State} (h : NoReset n s) (hmn : m ≤ n) : NoReset m s :=
  fun p hp => h p (List.take_subset_take_left _ hmn hp)

section

variable {s : State} (hr : s.request = none) (hp : IsProgram s.prog) (hupc : s.upc = 0)
  {n : Nat} (hn : sampleCount s.prog = n + 1) (hno : NoReset (s.prog.length + 1) s)
include hr hp hupc hn hno

/-- A program of the CORE with `n + 1` samples, from its first micro-op to its last. -/
theorem runSteps_isProgram (hd : s.drv_state ≠ .idle) :
    runSteps s.prog.length s = .next { s with
      scl_o := 1, sda_o := 1, ack := Config.sdaIn (s.draws + n), draws := s.draws + (n + 1)
      trace := s.trace ++ eventsOf s.prog s.draws
      upc := BitVec.ofNat 9 s.prog.length, inputs := s.inputs.drop s.prog.length, rsp_valid := 0 } := by
  have hpos : s.prog.length ≠ 0 := by
    intro h0
    rw [List.length_eq_zero_iff.1 h0] at hn
    cases hn
  rw [runSteps_program hr hd (isProgram_length hp) hupc hpos (noReset_mono hno (Nat.le_succ _)),
    runOps_samples hn, isProgram_endLevels hp]

/-- A host command's program, and the step that completes it. -/
theorem runSteps_transmission (hd : s.drv_state = .transmitting) :
    runSteps (s.prog.length + 1) s = .next { s with
      scl_o := 1, sda_o := 1, ack := Config.sdaIn (s.draws + n), draws := s.draws + (n + 1)
      trace := s.trace ++ eventsOf s.prog s.draws ++ [.response .ok]
      upc := BitVec.ofNat 9 s.prog.length, inputs := s.inputs.drop (s.prog.length + 1)
      status := .ok, rsp_valid := 1, drv_state := .idle } := by
  have hend : (BitVec.ofNat 9 s.prog.length).toNat = s.prog.length :=
    by
    rw [BitVec.toNat_ofNat, Nat.mod_eq_of_lt (isProgram_length hp)]
  rw [runSteps_add (runSteps_isProgram hr hp hupc hn hno (by simp [hd])), ← List.tail_drop]
  exact runSteps_one (step_transmitting_ended (portsNow_rst_of_noReset hno (Nat.lt_succ_self _) rfl) hr hd hend)

end

/-- Settles O47: INIT_PROG runs, and the step after it completes without a response. -/
theorem initializationRunsToIdle : Obligations.InitializationRunsToIdle := by
  intro s h hr hno
  have hlen : s.prog.length = 127 := by rw [h.prog, initProg_length]
  have hsamples : sampleCount s.prog = 1 + 1 := by rw [h.prog, initProg_sampleCount]
  have hrun := runSteps_isProgram hr (.inl h.prog) h.upc hsamples (by rw [hlen]; exact hno)
    (by simp [h.drv_state])
  rw [hlen] at hrun
  have hinputs : s.inputs.drop 128 = (s.inputs.drop 127).tail := List.tail_drop.symm
  rw [runSteps_add (m := 127) (n := 1) hrun, hinputs, h.scl_o, h.sda_o, h.rsp_valid, ← h.prog]
  exact runSteps_one
    (step_uninit_ended (portsNow_rst_of_noReset hno (Nat.lt_succ_self 127) rfl) hr h.drv_state hlen.symm)

/-- The state that SET_BRIGHTNESS begins its transmission in. -/
def acceptedBrightness (level : BitVec 8) (text : List Byte) (b : Byte) (s : State) : State :=
  { s with
    op_l := 0, level_l := level, text_l := text, prog := brightProg b, upc := 0, drv_state := .transmitting
    inputs := s.inputs.tail, rsp_valid := 0, trace := s.trace ++ [.acceptBrightness level] }

/-- The state that SET_TEXT begins its transmission in. -/
def acceptedText (level : BitVec 8) (text : List Byte) (a : Assembly) (s : State) : State :=
  { s with
    op_l := 1, level_l := level, text_l := text, buf := a.buf, cursor := a.cursor
    prog := textProg a.buf.d0 a.buf.d1 a.buf.d2 a.buf.d3, upc := 0, drv_state := .transmitting
    inputs := s.inputs.tail, rsp_valid := 0, trace := s.trace ++ [.acceptText text] }

theorem step_offered_brightness {s : State} {level : BitVec 8} {text : List Byte} {b : Byte}
    (hr : s.request = none) (hd : s.drv_state = .idle) (ho : Offers s 0 level text)
    (hb : brightCommand level.toInt = .ok b) : step s = .next (acceptedBrightness level text b s) := by
  obtain ⟨hrst, hv, hop, rfl, rfl⟩ := ho
  exact step_of_rule hr (.brightnessBegun hrst hd hv hop b hb)

theorem step_offered_text {s : State} {level : BitVec 8} {text : List Byte} {a : Assembly}
    (hr : s.request = none) (hd : s.drv_state = .idle) (ho : Offers s 1 level text)
    (ha : a = assembleText s.rom text) (hok : a.code = .ok) : step s = .next (acceptedText level text a s) := by
  obtain ⟨hrst, hv, hop, rfl, rfl⟩ := ho
  exact step_of_rule hr (.textBegun hrst hd hv hop a ha hok)

theorem brightCommand_of_le {level : Int} {b : Byte} (h8 : level ≤ 8)
    (hb : b = (if level ≤ 0 then 0x80 else 0x88 ||| BitVec.ofInt 8 (level - 1))) :
    brightCommand level = .ok b := by
  subst hb
  by_cases h0 : level ≤ 0
  · rw [brightCommand_blank h0, if_pos h0]
  · rw [brightCommand_level (by omega) h8, if_neg h0]

/-- Settles O48: the accept step, the 63 micro-ops of BRIGHT_PROG, and the step that completes it. -/
theorem setBrightnessRunsToCompletion : Obligations.SetBrightnessRunsToCompletion := by
  intro s level text b h hd ho hno h8 hb
  have hcmd := brightCommand_of_le h8 hb
  obtain ⟨hscl, hsda⟩ := h.idle_lines hd
  have hlen : (acceptedBrightness level text b s).prog.length = 63 := brightProg_length b
  have hrest : NoReset 64 (acceptedBrightness level text b s) := noReset_of_drop (k := 1) hno List.drop_one.symm
  have hrun := runSteps_transmission (s := acceptedBrightness level text b s) (n := 0) h.no_request
    (isProgram_brightProg hcmd) rfl (sendByteOps_sampleCount b 1 1) (by rw [hlen]; exact hrest) rfl
  have hinputs : s.inputs.drop 65 = s.inputs.tail.drop 64 := List.drop_tail.symm
  rw [hlen] at hrun
  rw [runSteps_succ (step_offered_brightness h.no_request hd ho hcmd), hrun, hscl, hsda, hd, hinputs]
  rfl

/-- Settles O49: the accept step, the 283 micro-ops of TEXT_PROG, and the step that completes it. -/
theorem setTextRunsToCompletion : Obligations.SetTextRunsToCompletion := by
  intro s level text a h hd ho hno ha hok
  have hdigit : a.buf.d3.msb = false := by
    rw [ha]
    exact (lastDigitNeverCarriesADot s.rom text ((fontRomWf_iff s.rom).1 h.rom_wf).1).1
  obtain ⟨hscl, hsda⟩ := h.idle_lines hd
  have hlen : (acceptedText level text a s).prog.length = 283 := textProg_length _ _ _ _
  have hrest : NoReset 284 (acceptedText level text a s) := noReset_of_drop (k := 1) hno List.drop_one.symm
  have hrun := runSteps_transmission (s := acceptedText level text a s) (n := 4) h.no_request
    (isProgram_textProg _ _ _ hdigit) rfl (textFrameOps_sampleCount _ _ _ _) (by rw [hlen]; exact hrest) rfl
  have hinputs : s.inputs.drop 285 = s.inputs.tail.drop 284 := List.drop_tail.symm
  rw [hlen] at hrun
  rw [runSteps_succ (step_offered_text h.no_request hd ho ha hok), hrun, hscl, hsda, hd, hinputs]
  rfl

end Sys2Proof.Proofs

namespace Sys2Proof.Proofs

open Sys2Proof.Machine

/-! ### The rows of the font ROM and their codes (R83, R152) -/

/-- Each row's word is its code, and the code decodes to the row, which is not the general ENCODE. -/
theorem fontCodes_encode_decode : ∀ row ∈ fontCodes,
    encode row.2 = some (.char row.1) ∧ decodeChar row.1 = row.2 ∧ row.2 ≠ .encode row.1 := by decide

theorem fontCodes_keys : fontCodes.map Prod.fst = fontKeys := rfl

/-- Each row reads the ROM at its code. -/
theorem exec_fontCodes (s : State) : ∀ row ∈ fontCodes, exec row.2 s = .next (returnPattern row.1 s) := by
  simp only [fontCodes, fontCodesDigits, fontCodesUpper, fontCodesLower, List.cons_append, List.nil_append,
    List.forall_mem_cons, List.not_mem_nil, false_imp_iff, implies_true, and_true]
  and_intros <;> rfl

theorem fontRow_eq_none {rows : List (Byte × Instr)} {c : Byte} (h : c ∉ rows.map Prod.fst) :
    fontRow rows c = none := by
  induction rows with
  | nil => rfl
  | cons row rows ih =>
    obtain ⟨hne, hrest⟩ := not_or.1 (List.mem_cons.not.1 h)
    rw [fontRow, if_neg (Ne.symm hne), ih hrest]

/-- A code that no row has decodes to the general ENCODE. -/
theorem decodeChar_of_not_mem {c : Byte} (h : c ∉ fontKeys) : decodeChar c = .encode c := by
  rw [← fontCodes_keys] at h
  rw [decodeChar, fontRow_eq_none h, Option.getD_none]

/-- A key's code decodes to the key's row. -/
theorem decodeChar_of_mem {c : Byte} (h : c ∈ fontKeys) : (c, decodeChar c) ∈ fontCodes := by
  rw [← fontCodes_keys] at h
  obtain ⟨row, hrow, rfl⟩ := List.mem_map.1 h
  rw [(fontCodes_encode_decode row hrow).2.1]
  exact hrow

theorem encode_decodeChar (c : Byte) : encode (decodeChar c) = some (.char c) := by
  by_cases h : c ∈ fontKeys
  · exact (fontCodes_encode_decode _ (decodeChar_of_mem h)).1
  · rw [decodeChar_of_not_mem h]
    rfl

theorem exec_decodeChar (c : Byte) (s : State) : exec (decodeChar c) s = exec (.encode c) s := by
  by_cases h : c ∈ fontKeys
  · exact exec_fontCodes s _ (decodeChar_of_mem h)
  · rw [decodeChar_of_not_mem h]

theorem decodeChar_eq_encode_iff (c : Byte) : decodeChar c = .encode c ↔ c ∉ fontKeys :=
  ⟨fun he hc => (fontCodes_encode_decode _ (decodeChar_of_mem hc)).2.2 he, decodeChar_of_not_mem⟩

/-! ### Wire bytes (R71 to R77) -/

/-- The brightness bytes are those from 0x88 to 0x8F. -/
theorem extract_high_iff (b : Byte) : b.extractLsb' 3 5 = 0b10001 ↔ 0x88 ≤ b.toNat ∧ b.toNat ≤ 0x8F := by
  have hlt := b.isLt
  rw [← BitVec.toNat_inj, BitVec.extractLsb'_toNat, Nat.shiftRight_eq_div_pow]
  show b.toNat / 8 % 32 = 17 ↔ _
  omega

/-- R77: the byte of level 8 is UNBLANK's; the other seven decode to their own row. -/
theorem decodeW_brightByte (b : BitVec 3) : decodeW (brightByte b) = .ok (canonical (.brightnessByte b)) := by
  revert b
  decide

theorem encode_canonical_brightnessByte (b : BitVec 3) :
    encode (canonical (.brightnessByte b)) = some (.w (brightByte b)) := by
  by_cases h : b = 7
  · subst h
    rfl
  · rw [canonical, if_neg h]
    rfl

/-- The word of a SEND_BYTE request holds its three operands. -/
theorem decodeP_append (v : Byte) (s p : BitVec 1) : decodeP (p ++ s ++ v) = .sendByte v s p := by
  have hv : (p ++ s ++ v).extractLsb' 0 8 = v := BitVec.extractLsb'_append_eq_right
  have hs : (p ++ s ++ v).extractLsb' 8 1 = s := by
    rw [BitVec.extractLsb'_append_eq_of_le (Nat.le_refl 8)]
    exact BitVec.extractLsb'_append_eq_right
  have hp : (p ++ s ++ v).extractLsb' 9 1 = p := by
    rw [BitVec.extractLsb'_append_eq_of_le (by decide)]
    exact BitVec.extractLsb'_append_eq_left
  rw [decodeP, hv, hs, hp]

/-! ### Decoding an encoded word (R70 to R87) -/

/-- An instruction that has a word is the row the decoder answers, or shares the word with it. -/
theorem decode_encode {i : Instr} {e : Encoded} (h : encode i = some e) :
    decode e = .ok (canonical i) ∧ encode (canonical i) = some e := by
  cases i
  case brightnessByte b =>
    cases h
    exact ⟨decodeW_brightByte b, encode_canonical_brightnessByte b⟩
  case encode c =>
    cases h
    exact ⟨rfl, encode_decodeChar c⟩
  case sendByte v s p =>
    cases h
    exact ⟨congrArg Except.ok (decodeP_append v s p), rfl⟩
  case initSeq | brightSelect | init | bit | ackPhase | sda | scl | wait | sample | assemble => cases h
  all_goals
    cases h
    exact ⟨rfl, rfl⟩

/-- Settles O53: decoding inverts encoding up to the rows that share a word. -/
theorem decodeOfEncodeIsTheInstruction : Obligations.DecodeOfEncodeIsTheInstruction := by
  refine ⟨fun i e h => decode_encode h, fun i j e hi hj => ?_⟩
  have hij : Except.ok (canonical i) = Except.ok (canonical j) :=
    (decode_encode hi).1.symm.trans (decode_encode hj).1
  exact Except.ok.inj hij

theorem exec_canonical_brightnessByte (b : BitVec 3) (s : State) :
    exec (canonical (.brightnessByte b)) s = exec (.brightnessByte b) s := by
  by_cases h : b = 7
  · subst h
    rfl
  · rw [canonical, if_neg h]

/-- Settles O54: only the brightness byte of level 8 and the codes of the keys have another row. -/
theorem rowsThatShareAWordMeanTheSame : Obligations.RowsThatShareAWordMeanTheSame := by
  refine ⟨fun i s => ?_, rfl, decodeChar_eq_encode_iff⟩
  cases i
  case brightnessByte b => exact exec_canonical_brightnessByte b s
  case encode c => exact exec_decodeChar c s
  all_goals rfl

/-- A byte is a command of the map, or it is rejected by name. -/
theorem decodeW_cases (b : Byte) :
    (∃ i, decodeW b = .ok i) ∧ (b = 0x40 ∨ b = 0x80 ∨ b = 0xC0 ∨ b.extractLsb' 3 5 = 0b10001) ∨
      decodeW b = .error (.notACommandByte b) ∧
        ¬ (b = 0x40 ∨ b = 0x80 ∨ b = 0xC0 ∨ b.extractLsb' 3 5 = 0b10001) := by
  unfold decodeW
  split_ifs with hunblank hblank hautoinc hstart hbright
  · exact .inl ⟨⟨_, rfl⟩, .inr (.inr (.inr (by rw [hunblank]; rfl)))⟩
  · exact .inl ⟨⟨_, rfl⟩, .inr (.inl hblank)⟩
  · exact .inl ⟨⟨_, rfl⟩, .inl hautoinc⟩
  · exact .inl ⟨⟨_, rfl⟩, .inr (.inr (.inl hstart))⟩
  · exact .inl ⟨⟨_, rfl⟩, .inr (.inr (.inr hbright))⟩
  · exact .inr ⟨rfl, by simp only [hautoinc, hblank, hstart, hbright, or_self, not_false_eq_true]⟩

/-- Settles O55: R80's map, with the brightness bytes as a range. -/
theorem commandBytesAreExactlyTheMap : Obligations.CommandBytesAreExactlyTheMap := by
  intro b
  rw [← extract_high_iff]
  obtain ⟨hok, hmap⟩ | ⟨herr, hmap⟩ := decodeW_cases b
  · exact ⟨iff_of_true hok hmap, fun hno => absurd hok hno, rfl, rfl⟩
  · refine ⟨iff_of_false ?_ hmap, fun _ => herr, rfl, rfl⟩
    rintro ⟨i, hi⟩
    cases herr.symm.trans hi

/-- Settles O6: each word is decoded by the format its width and bits select. -/
theorem tableWordsDecodeToTheirRows : Obligations.TableWordsDecodeToTheirRows := by
  unfold Obligations.TableWordsDecodeToTheirRows
  decide

end Sys2Proof.Proofs

namespace Sys2Proof.Proofs

open Sys2Proof.Machine

/-! ### Micro-ops, STOP, BIT and ACK_PHASE taken alone (R10, R102, R111, R114) -/

/-- Settles O7: the meaning of a micro-op is its `doMicro`. -/
theorem microOperationsHaveTheirEffect : Obligations.MicroOperationsHaveTheirEffect := fun s =>
  ⟨fun v => exec_toInstr (.sda v) s, fun v => exec_toInstr (.scl v) s, fun n => exec_toInstr (.wait n) s,
    exec_toInstr .sample s⟩

theorem exec_stop_effect (s : State) : exec .stop s = .next { s with
    scl_o := 1, sda_o := 1
    trace := s.trace ++ [.scl 1, .wait 300, .sda 1, .wait 300] } := by
  have hrun : exec .stop s = .next (runOps stopOps s) := rfl
  rw [hrun, runOps_no_sample rfl, stopOps_endLevels]
  rfl

/-- The data output rises while the clock is high exactly where it was low before. -/
theorem stopOps_waveform :
    waveform 0 0 0 stopOps = [⟨0, 0, 0⟩, ⟨1, 0, 300⟩, ⟨1, 1, 300⟩] ∧
      waveform 0 1 0 stopOps = [⟨0, 1, 0⟩, ⟨1, 1, 600⟩] := by decide

/-- Settles O9. -/
theorem stopReturnsTheLinesToIdle : Obligations.StopReturnsTheLinesToIdle :=
  ⟨exec_stop_effect, rfl, rfl, stopOps_waveform⟩

theorem exec_bit_effect (b : Level) (s : State) : exec (.bit b) s = .next { s with
    scl_o := 0, sda_o := b
    trace := s.trace ++ [.wait 200, .sda b, .wait 100, .scl 1, .wait 300, .scl 0] } := by
  have hrun : exec (.bit b) s = .next (runOps (bitOps b) s) := rfl
  rw [hrun, runOps_no_sample rfl, bitOps_endLevels]
  rfl

/-- The new level is written in the clock-low phase, and stands until the clock has fallen again. -/
theorem bitOps_waveform (b d : Level) : waveform 0 d 0 (bitOps b) =
    if b = d then [⟨0, d, 300⟩, ⟨1, d, 300⟩, ⟨0, d, 0⟩]
    else [⟨0, d, 200⟩, ⟨0, b, 100⟩, ⟨1, b, 300⟩, ⟨0, b, 0⟩] := by
  revert b d
  decide

/-- Settles O10. -/
theorem bitClocksOneDataBit : Obligations.BitClocksOneDataBit :=
  ⟨exec_bit_effect, bitOps_waveform⟩

theorem exec_ackPhase_effect (s : State) : exec .ackPhase s = .next { s with
    scl_o := 0, ack := Config.sdaIn s.draws, draws := s.draws + 1
    trace := s.trace ++ [.wait 300, .sample (Config.sdaIn s.draws), .scl 1, .wait 600, .scl 0, .wait 300] } := by
  have hrun : exec .ackPhase s = .next (runOps ackOps s) := rfl
  rw [hrun, runOps_one_sample rfl, ackOps_endLevels]
  rfl

/-- Settles O11. -/
theorem ackPhaseSamplesBeforeTheNinthPulse : Obligations.AckPhaseSamplesBeforeTheNinthPulse :=
  ⟨exec_ackPhase_effect, rfl, rfl, nominalUs_ackOps⟩

/-! ### The line accesses and the sample of a byte (R112, R114) -/

theorem sclWrites_append (xs ys : List MicroOp) : sclWrites (xs ++ ys) = sclWrites xs ++ sclWrites ys := by
  induction xs with
  | nil => rfl
  | cons op xs ih => cases op <;> simp [sclWrites, ih]

theorem sdaWrites_dataOps_length (v : Byte) : (sdaWrites (dataOps v)).length = 8 := by
  rw [dataOps_eq_bits, sdaWrites_bits, byteBits_length]

/-- Nine clock pulses: eight for the bits, one for the ack phase. -/
theorem sclWrites_dataOps_ackOps (v : Byte) :
    sclWrites (dataOps v ++ ackOps) = (List.replicate 9 [1, 0]).flatten := rfl

theorem sdaWrites_sendByteOps_length (v : Byte) (s p : BitVec 1) :
    (sdaWrites (sendByteOps v s p)).length = 8 + s.toNat + p.toNat := by
  have start : (sdaWrites (if s = 1 then startOps else [])).length = s.toNat := by
    rcases level_cases s with rfl | rfl <;> rfl
  have stop : (sdaWrites (if p = 1 then stopOps else [])).length = p.toNat := by
    rcases level_cases p with rfl | rfl <;> rfl
  have ack : (sdaWrites ackOps).length = 0 := rfl
  have trail : (sdaWrites [.wait Config.tTrail]).length = 0 := rfl
  simp only [sendByteOps, sdaWrites_append, List.length_append, start, sdaWrites_dataOps_length, ack, stop, trail]
  omega

theorem sclWrites_sendByteOps_length (v : Byte) (s p : BitVec 1) :
    (sclWrites (sendByteOps v s p)).length = 18 + s.toNat + p.toNat := by
  have start : (sclWrites (if s = 1 then startOps else [])).length = s.toNat := by
    rcases level_cases s with rfl | rfl <;> rfl
  have stop : (sclWrites (if p = 1 then stopOps else [])).length = p.toNat := by
    rcases level_cases p with rfl | rfl <;> rfl
  have pulses : (sclWrites (dataOps v)).length + (sclWrites ackOps).length = 18 := rfl
  have trail : (sclWrites [.wait Config.tTrail]).length = 0 := rfl
  simp only [sendByteOps, sclWrites_append, List.length_append, start, stop, trail]
  omega

/-- Settles O14: the accesses of the parts of SEND_BYTE, added up. -/
theorem lineAccessesOfOneByte : Obligations.LineAccessesOfOneByte := fun v s p =>
  ⟨sdaWrites_sendByteOps_length v s p, sclWrites_sendByteOps_length v s p,
    by rw [sclWrites_dataOps_ackOps]; decide, by rw [sclWrites_dataOps_ackOps]; decide,
    sendByteOps_sampleCount v s p⟩

theorem wiredAnd_eq_ite (core dev : Level) : wiredAnd core dev = if core = 0 then 0 else dev := by
  revert core dev
  decide

/-- What a SEND_BYTE does before its sample. -/
def beforeSample (v : Byte) (s : BitVec 1) : List MicroOp :=
  (if s = 1 then startOps else []) ++ dataOps v ++ [.wait Config.tAckSetup]

/-- What a SEND_BYTE does after its sample. -/
def afterSample (p : BitVec 1) : List MicroOp :=
  [.scl 1, .wait Config.tAckHigh, .scl 0, .wait Config.tAckHold] ++ (if p = 1 then stopOps else []) ++
    [.wait Config.tTrail]

theorem sendByteOps_eq_sample (v : Byte) (s p : BitVec 1) :
    sendByteOps v s p = beforeSample v s ++ .sample :: afterSample p := by
  simp [sendByteOps, beforeSample, afterSample, ackOps]

theorem beforeSample_endLevels (v : Byte) (s : BitVec 1) (cd : Level × Level) :
    endLevels (beforeSample v s) cd = (0, bitAt v 7) := by
  rw [beforeSample, endLevels_append, endLevels_append, dataOps_endLevels]
  rfl

theorem beforeSample_sampleCount (v : Byte) (s : BitVec 1) : sampleCount (beforeSample v s) = 0 := by
  rcases level_cases s with rfl | rfl <;> rfl

theorem afterSample_sampleCount (p : BitVec 1) : sampleCount (afterSample p) = 0 := by
  rcases level_cases p with rfl | rfl <;> rfl

/-- Settles O16: the last bit stands on the data output when the sample is taken. -/
theorem sampleSeesTheCoresOwnDriver : Obligations.SampleSeesTheCoresOwnDriver := fun v s p =>
  ⟨beforeSample v s, afterSample p, sendByteOps_eq_sample v s p, beforeSample_sampleCount v s,
    afterSample_sampleCount p, beforeSample_endLevels v s, fun cd dev => by
      rw [beforeSample_endLevels, wiredAnd_eq_ite]⟩

/-! ### Wire commands as SEND_BYTEs (R131 to R136, R140) -/

/-- A SEND_BYTE with START and STOP is a frame of its own. -/
theorem runOps_frame (b : Byte) (s : State) : runOps (sendByteOps b 1 1) s = { s with
    scl_o := 1, sda_o := 1, ack := Config.sdaIn s.draws, draws := s.draws + 1
    trace := s.trace ++ eventsOf (sendByteOps b 1 1) s.draws } := by
  rw [runOps_one_sample (sendByteOps_sampleCount b 1 1), sendByteOps_endLevels, if_pos rfl]

theorem exec_brightnessByte_effect (b : BitVec 3) (s : State) : exec (.brightnessByte b) s = .next { s with
    scl_o := 1, sda_o := 1, ack := Config.sdaIn s.draws, draws := s.draws + 1
    trace := s.trace ++ eventsOf (sendByteOps (0x88 + b.setWidth 8) 1 1) s.draws } := by
  have hrun : exec (.brightnessByte b) s = .next (runOps (sendByteOps (0x88 ||| b.setWidth 8) 1 1) s) := rfl
  rw [hrun, ← brightByte_eq_or, brightByte_eq_add, runOps_frame]

/-- Settles O17. -/
theorem singleByteCommandsSendTheirFrame : Obligations.SingleByteCommandsSendTheirFrame := fun s =>
  ⟨congrArg Host.Outcome.next (runOps_frame 0x8F s), congrArg Host.Outcome.next (runOps_frame 0x80 s),
    congrArg Host.Outcome.next (runOps_frame 0x40 s),
    fun b => exec_brightnessByte_effect b s⟩

/-- A SEND_BYTE without STOP leaves the frame open, with bit 7 of the byte on the data output. -/
theorem runOps_openFrame (v : Byte) (withStart : BitVec 1) (s : State) :
    runOps (sendByteOps v withStart 0) s = { s with
      scl_o := 0, sda_o := bitAt v 7, ack := Config.sdaIn s.draws, draws := s.draws + 1
      trace := s.trace ++ eventsOf (sendByteOps v withStart 0) s.draws } := by
  rw [runOps_one_sample (sendByteOps_sampleCount v withStart 0), sendByteOps_endLevels, if_neg (by decide)]

/-- A SEND_BYTE with STOP ends the frame that is open. -/
theorem runOps_closeFrame (v : Byte) (s : State) : runOps (sendByteOps v 0 1) s = { s with
    scl_o := 1, sda_o := 1, ack := Config.sdaIn s.draws, draws := s.draws + 1
    trace := s.trace ++ eventsOf (sendByteOps v 0 1) s.draws } := by
  rw [runOps_one_sample (sendByteOps_sampleCount v 0 1), sendByteOps_endLevels, if_pos rfl]

theorem exec_setStartAddr_effect (s : State) : exec .setStartAddr s = .next { s with
    scl_o := 0, sda_o := 1, ack := Config.sdaIn s.draws, draws := s.draws + 1
    trace := s.trace ++ eventsOf (sendByteOps 0xC0 1 0) s.draws } := by
  have hrun : exec .setStartAddr s = .next (runOps (sendByteOps 0xC0 1 0) s) := rfl
  have hbit : bitAt 0xC0 7 = 1 := rfl
  rw [hrun, runOps_openFrame, hbit]

/-- Settles O18: the three are SEND_BYTEs with other flags. -/
theorem textFrameBytesKeepTheFrameOpen : Obligations.TextFrameBytesKeepTheFrameOpen := fun s =>
  ⟨exec_setStartAddr_effect s, fun d => congrArg Host.Outcome.next (runOps_openFrame d 0 s),
    fun d => congrArg Host.Outcome.next (runOps_closeFrame d s)⟩

theorem brightCommand_level_add {level : Int} (h1 : 1 ≤ level) (h8 : level ≤ 8) :
    brightCommand level = .ok (0x88 + BitVec.ofInt 8 (level - 1)) := by
  rw [brightCommand_eq_brightByte h1 h8, brightByte_eq_add, setWidth_ofInt_three (by omega) (by omega)]

/-- Settles O20: BRIGHT_SELECT sends what `brightCommand` chooses. -/
theorem brightnessSelectionIsThreeWay : Obligations.BrightnessSelectionIsThreeWay := fun level s =>
  ⟨fun h0 => by rw [exec_brightSelect_of_ok (brightCommand_blank h0), runOps_frame],
    fun h1 h8 => by rw [exec_brightSelect_of_ok (brightCommand_level_add h1 h8), runOps_frame],
    fun h9 => exec_brightSelect_of_error (brightCommand_error h9) s⟩

/-! ### What a receiver reads (R79) -/

/-- The eight bits of a byte in order give the byte. -/
theorem bits_append (v : Byte) :
    bitAt v 7 ++ bitAt v 6 ++ bitAt v 5 ++ bitAt v 4 ++ bitAt v 3 ++ bitAt v 2 ++ bitAt v 1 ++ bitAt v 0 = v := by
  simp only [bitAt, BitVec.extractLsb'_append_extractLsb'_eq_extractLsb']
  exact BitVec.extractLsb'_eq_self

theorem receivedBytes_byte (v : Byte) (slot : Level) (rest : List Level) :
    receivedBytes (byteBits v ++ [slot] ++ rest) = v :: receivedBytes rest :=
  congrArg (· :: receivedBytes rest) (bits_append v)

/-- A byte of an open frame, and what follows it. -/
theorem receivedBytes_sendByteOps (v : Byte) (d : Level) (ops : List MicroOp) :
    receivedBytes (clockedLevels 0 d (sendByteOps v 0 0 ++ ops)) =
      v :: receivedBytes (clockedLevels 0 (bitAt v 7) ops) := by
  have hend : endLevels (sendByteOps v 0 0) (0, d) = (0, bitAt v 7) := sendByteOps_endLevels v 0 0 (0, d)
  rw [clockedLevels_append _ _ (0, d), hend, clockedLevels_sendByteOps, if_neg (by decide), List.append_nil,
    receivedBytes_byte]

/-- The last byte of a frame: the clock edge of STOP begins no further byte. -/
theorem receivedBytes_lastByte (v : Byte) (d : Level) :
    receivedBytes (clockedLevels 0 d (sendByteOps v 0 1)) = [v] := by
  rw [clockedLevels_sendByteOps, if_pos rfl, receivedBytes_byte]
  rfl

/-- START from idle puts both outputs at 0 without a rising clock edge. -/
theorem clockedLevels_start_append (v : Byte) (p : BitVec 1) (ops : List MicroOp) :
    clockedLevels 1 1 (sendByteOps v 1 p ++ ops) = clockedLevels 0 0 (sendByteOps v 0 p ++ ops) := by
  rw [clockedLevels_append _ _ (1, 1), clockedLevels_append _ _ (0, 0), sendByteOps_endLevels,
    sendByteOps_endLevels, clockedLevels_sendByteOps_start]

theorem receive_textProg (d0 d1 d2 d3 : Byte) : receive (textProg d0 d1 d2 d3) = [0xC0, d0, d1, d2, d3] := by
  simp only [receive, textProg, textFrameOps, List.append_assoc, clockedLevels_start_append,
    receivedBytes_sendByteOps, receivedBytes_lastByte]

theorem receive_brightProg (b : Byte) : receive (brightProg b) = [b] := by
  rw [receive, brightProg, clockedLevels_sendByteOps_start, receivedBytes_lastByte]

/-- Settles O22: the receiver takes one byte from each SEND_BYTE. -/
theorem receiverReadsTheFrameBack : Obligations.ReceiverReadsTheFrameBack :=
  ⟨receive_textProg, receive_brightProg⟩

end Sys2Proof.Proofs

namespace Sys2Proof.Proofs

open Sys2Proof.Machine

/-! ### ENCODE and the cells of the font ROM (R150, R152) -/

/-- Settles O24. -/
theorem encodeReturnsTheRomCell : Obligations.EncodeReturnsTheRomCell :=
  ⟨fun _ _ => rfl, by decide, by decide⟩

/-- Settles O25: each row is `returnPattern` of its code. -/
theorem fontCellsOfDigitsAndSigns : Obligations.FontCellsOfDigitsAndSigns := by
  refine ⟨fun s => ?_, by decide⟩
  and_intros <;> rfl

/-- Settles O26: each row is `returnPattern` of its code. -/
theorem fontCellsOfUpperCaseLetters : Obligations.FontCellsOfUpperCaseLetters := by
  refine ⟨fun s => ?_, by decide⟩
  and_intros <;> rfl

/-- Settles O27: each row is `returnPattern` of its code. -/
theorem fontCellsOfLowerCaseLetters : Obligations.FontCellsOfLowerCaseLetters := by
  refine ⟨fun s => ?_, by decide⟩
  and_intros <;> rfl

/-! ### ASSEMBLE, INIT and the host commands taken alone (R154, R171 to R175, R194) -/

/-- Settles O29. -/
theorem assembleWritesBufferAndCursor : Obligations.AssembleWritesBufferAndCursor := fun _ _ =>
  ⟨exec_assemble_of_ok, exec_assemble_of_error⟩

/-- Settles O34: INIT writes three elements, and at reset they hold these values already. -/
theorem initLoadsTheInitializationProgram : Obligations.InitLoadsTheInitializationProgram :=
  ⟨fun _ => rfl, rfl, rfl⟩

/-- A byte reads as a number, and the number gives the byte back. -/
theorem ofInt_toInt_sub_one (level : BitVec 8) : BitVec.ofInt 8 (level.toInt - 1) = level - 1 := by
  rw [Int.sub_eq_add_neg, BitVec.ofInt_add, BitVec.ofInt_toInt, BitVec.sub_eq_add_neg]
  rfl

/-- Settles O35: the level's byte is `brightCommand`'s, computed on the port's value. -/
theorem setBrightnessBeginsItsProgram : Obligations.SetBrightnessBeginsItsProgram := by
  refine fun level s hd => ⟨fun h0 => ?_, fun h1 h8 => ?_⟩
  · exact exec_setBrightness_of_ok hd (brightCommand_blank h0)
  · have hb := brightCommand_level_add h1 h8
    rw [ofInt_toInt_sub_one] at hb
    exact exec_setBrightness_of_ok hd hb

/-- Settles O36. -/
theorem setTextBeginsItsProgram : Obligations.SetTextBeginsItsProgram := fun _ _ hd hok =>
  exec_setText_of_ok hd hok

/-- Settles O37: both commands latch and raise, and SET_TEXT has assembled before it raises. -/
theorem failedCommandHasNoBusActivity : Obligations.FailedCommandHasNoBusActivity := by
  refine fun s hd => ⟨fun level h9 => ?_, fun text hne => ?_⟩
  · rw [exec_setBrightness_of_error hd (brightCommand_error h9), raiseError_latchBrightness]
  · rw [exec_setText_of_error hd hne, raiseError_latchText]

end Sys2Proof.Proofs

namespace Sys2Proof.Proofs

open Sys2Proof.Machine

/-! ### The shapes of the programs and their frames (R33, R59, R78) -/

theorem initShape_ops : initShape.ops = initProg := by
  simp [ProgramShape.ops, initShape, requestOps, initProg, initSeqOps]

theorem brightShape_ops (b : Byte) : (brightShape b).ops = brightProg b := by
  simp [ProgramShape.ops, brightShape, requestOps, brightProg]

theorem textShape_ops (d0 d1 d2 d3 : Byte) : (textShape d0 d1 d2 d3).ops = textProg d0 d1 d2 d3 := by
  simp [ProgramShape.ops, textShape, requestOps, textProg, textFrameOps]

theorem initShape_frames : framesOf initShape.bytes [] = [[0x8F], [0x40]] := rfl

theorem brightShape_frames (b : Byte) : framesOf (brightShape b).bytes [] = [[b]] := rfl

theorem textShape_frames (d0 d1 d2 d3 : Byte) :
    framesOf (textShape d0 d1 d2 d3).bytes [] = [[0xC0, d0, d1, d2, d3]] := rfl

theorem isBrightByte_iff (b : Byte) : IsBrightByte b ↔ b = 0x80 ∨ (0x88 ≤ b.toNat ∧ b.toNat ≤ 0x8F) := by
  rw [IsBrightByte, extract_high_iff]

/-- A program of R39 sends the frames of R59 and no others. -/
theorem isProgram_frames {p : List MicroOp} (h : IsProgram p) :
    ∃ sh : ProgramShape, p = sh.ops ∧
      (framesOf sh.bytes [] = [[0x8F], [0x40]] ∨
        (∃ b, (b = 0x80 ∨ (0x88 ≤ b.toNat ∧ b.toNat ≤ 0x8F)) ∧ framesOf sh.bytes [] = [[b]]) ∨
        ∃ d0 d1 d2 d3 : Byte, d3.msb = false ∧ framesOf sh.bytes [] = [[0xC0, d0, d1, d2, d3]]) := by
  rcases h with rfl | ⟨b, hb, rfl⟩ | ⟨d0, d1, d2, d3, hd, rfl⟩
  · exact ⟨initShape, initShape_ops.symm, .inl initShape_frames⟩
  · exact ⟨brightShape b, (brightShape_ops b).symm,
      .inr (.inl ⟨b, (isBrightByte_iff b).1 hb, brightShape_frames b⟩)⟩
  · exact ⟨textShape d0 d1 d2 d3, (textShape_ops d0 d1 d2 d3).symm,
      .inr (.inr ⟨d0, d1, d2, d3, hd, textShape_frames d0 d1 d2 d3⟩)⟩

/-- Settles O51: the invariant says which programs there are, and each is the list of its shape. -/
theorem programsSendTheFramesOfTheSpec : Obligations.ProgramsSendTheFramesOfTheSpec :=
  ⟨initShape_ops, initShape_frames, fun b => ⟨brightShape_ops b, brightShape_frames b⟩,
    fun d0 d1 d2 d3 => ⟨textShape_ops d0 d1 d2 d3, textShape_frames d0 d1 d2 d3⟩,
    fun _ h => isProgram_frames h.prog_kind⟩

/-! ### The counters walk through the list of their shape (R33) -/

/-- The BITs of a byte from bit `k` on. -/
def bitsFrom (v : Byte) (k : Nat) : List MicroOp := ((List.range 8).drop k).flatMap fun j => bitOps (bitAt v j)

theorem bitsFrom_zero (v : Byte) : bitsFrom v 0 = dataOps v := (dataOps_eq_flatMap v).symm

theorem bitsFrom_of_lt (v : Byte) {k : Nat} (h : k < 8) :
    bitsFrom v k = bitOps (bitAt v k) ++ bitsFrom v (k + 1) := by
  rw [bitsFrom, bitsFrom, List.drop_eq_getElem_cons (by simpa using h), List.flatMap_cons, List.getElem_range]

theorem bitsFrom_eight (v : Byte) : bitsFrom v 8 = [] := rfl

section

variable (sh : ProgramShape)

/-- The micro-ops of a shape from byte `k` on. -/
def opsFromByte (k : Nat) : List MicroOp :=
  requestOps (sh.bytes.drop k) ++ (if sh.settle then [.wait Config.tInitSettle] else [])

/-- What follows the table the registers are in. -/
def opsAfterTable (r : SeqRegs) : List MicroOp :=
  let fromTrail : List MicroOp := .wait Config.tTrail :: opsFromByte sh (r.byte_ix.toNat + 1)
  let fromStop := (if r.with_stop = 1 then stopOps else []) ++ fromTrail
  match r.phase with
  | .start => bitsFrom r.value 0 ++ (ackOps ++ fromStop)
  | .bit => bitsFrom r.value (r.bit_ix.toNat + 1) ++ (ackOps ++ fromStop)
  | .ack => fromStop
  | .stop => fromTrail
  | .trail => opsFromByte sh (r.byte_ix.toNat + 1)
  | .settle => []

/-- What the registers have still to give: the rest of their table, and what follows it. -/
def opsFromRegs (r : SeqRegs) : List MicroOp := r.table.drop r.sub.toNat ++ opsAfterTable sh r

/-- The registers are at a micro-op of a byte of the shape. -/
structure RegsWithin (r : SeqRegs) : Prop where
  sub_lt : r.sub.toNat < r.table.length
  byte_lt : r.byte_ix.toNat < sh.bytes.length

theorem table_length (r : SeqRegs) : 0 < r.table.length ∧ r.table.length ≤ 6 := by
  cases h : r.phase <;> simp [SeqRegs.table, h, startOps, bitOps, ackOps, stopOps]

/-- The registers at the first micro-op of a byte. -/
def firstRegs (k : BitVec 3) (b : ByteRequest) : SeqRegs :=
  ⟨k, b.value, b.withStart, b.withStop, if b.withStart = 1 then .start else .bit, 0, 0⟩

theorem load_of_lt {k : BitVec 3} (hk : k.toNat < sh.bytes.length) :
    sh.load k = some (firstRegs k sh.bytes[k.toNat]) := by
  rw [ProgramShape.load, List.getElem?_eq_getElem hk]
  rfl

theorem load_of_le {k : BitVec 3} (hk : sh.bytes.length ≤ k.toNat) : sh.load k = none := by
  rw [ProgramShape.load, List.getElem?_eq_none hk]

theorem regsWithin_firstRegs {k : BitVec 3} (hk : k.toNat < sh.bytes.length) (b : ByteRequest) :
    RegsWithin sh (firstRegs k b) :=
  ⟨(table_length _).1, hk⟩

/-- At its beginning a byte is still to be sent as a whole. -/
theorem opsFromRegs_firstRegs {k : BitVec 3} (hk : k.toNat < sh.bytes.length) :
    opsFromRegs sh (firstRegs k sh.bytes[k.toNat]) = opsFromByte sh k.toNat := by
  generalize hb : sh.bytes[k.toNat] = b
  rw [opsFromByte, List.drop_eq_getElem_cons hk, hb, requestOps, sendByteOps, ← bitsFrom_zero]
  rcases level_cases b.withStart with hs | hs
  · simp [firstRegs, opsFromRegs, SeqRegs.table, opsAfterTable, opsFromByte, hs,
      bitsFrom_of_lt b.value (Nat.succ_pos 7)]
  · simp [firstRegs, opsFromRegs, SeqRegs.table, opsAfterTable, opsFromByte, hs]

/-- Within a table the registers move on by one entry. -/
theorem next_within {r : SeqRegs} (h : RegsWithin sh r) (hsub : r.sub.toNat + 1 < r.table.length) :
    r.next sh = some { r with sub := r.sub + 1 } ∧ RegsWithin sh { r with sub := r.sub + 1 } ∧
      opsFromRegs sh r = r.table[r.sub.toNat]'h.sub_lt :: opsFromRegs sh { r with sub := r.sub + 1 } := by
  have hle := (table_length r).2
  have hnat : (r.sub + 1).toNat = r.sub.toNat + 1 := toNat_add_one (by omega)
  refine ⟨by rw [SeqRegs.next, if_pos hsub], ⟨hnat.trans_lt hsub, h.byte_lt⟩, ?_⟩
  have hrest : opsFromRegs sh { r with sub := r.sub + 1 } = r.table.drop (r.sub.toNat + 1) ++ opsAfterTable sh r :=
    congrArg (fun n => r.table.drop n ++ opsAfterTable sh r) hnat
  rw [hrest, opsFromRegs, List.drop_eq_getElem_cons h.sub_lt, List.cons_append]

/-- At the end of a table the registers move on to the next one, or to the end of the program. -/
theorem next_after {r : SeqRegs} (hbytes : sh.bytes.length ≤ 7) (h : RegsWithin sh r)
    (hsub : ¬ r.sub.toNat + 1 < r.table.length) :
    (r.next sh = none ∧ opsAfterTable sh r = []) ∨
      ∃ r', r.next sh = some r' ∧ RegsWithin sh r' ∧ opsAfterTable sh r = opsFromRegs sh r' := by
  have hbyte := h.byte_lt
  have within (r' : SeqRegs) (hix : r'.byte_ix = r.byte_ix) (h0 : r'.sub = 0) : RegsWithin sh r' :=
    ⟨by rw [h0]; exact (table_length r').1, by rw [hix]; exact hbyte⟩
  rw [SeqRegs.next, if_neg hsub]
  cases hp : r.phase with
  | start =>
    refine .inr ⟨_, rfl, within _ rfl rfl, ?_⟩
    simp [opsFromRegs, SeqRegs.table, opsAfterTable, hp, bitsFrom_of_lt r.value (Nat.succ_pos 7)]
  | bit =>
    dsimp only
    by_cases h7 : r.bit_ix = 7
    · rw [if_pos h7]
      refine .inr ⟨_, rfl, within _ rfl rfl, ?_⟩
      simp [opsFromRegs, SeqRegs.table, opsAfterTable, hp, h7, bitsFrom_eight]
    · rw [if_neg h7]
      have hne : r.bit_ix.toNat ≠ 7 := fun he => h7 (BitVec.eq_of_toNat_eq he)
      have hlt : r.bit_ix.toNat + 1 < 8 := by
        have hlt8 := r.bit_ix.isLt
        omega
      refine .inr ⟨_, rfl, within _ rfl rfl, ?_⟩
      simp [opsFromRegs, SeqRegs.table, opsAfterTable, hp, Nat.mod_eq_of_lt hlt, bitsFrom_of_lt r.value hlt]
  | ack =>
    refine .inr ⟨_, rfl, within _ rfl rfl, ?_⟩
    rcases level_cases r.with_stop with hstop | hstop
    · simp [opsFromRegs, SeqRegs.table, opsAfterTable, hp, hstop]
    · simp [opsFromRegs, SeqRegs.table, opsAfterTable, hp, hstop]
  | stop =>
    refine .inr ⟨_, rfl, within _ rfl rfl, ?_⟩
    simp [opsFromRegs, SeqRegs.table, opsAfterTable, hp]
  | trail =>
    have hnat : (r.byte_ix + 1).toNat = r.byte_ix.toNat + 1 := toNat_add_one (by omega)
    have hafter : opsAfterTable sh r = opsFromByte sh (r.byte_ix + 1).toNat := by
      simp only [opsAfterTable, hp, hnat]
    by_cases hk : (r.byte_ix + 1).toNat < sh.bytes.length
    · rw [load_of_lt sh hk]
      exact .inr ⟨_, rfl, regsWithin_firstRegs sh hk _, hafter.trans (opsFromRegs_firstRegs sh hk).symm⟩
    · have hdrop : sh.bytes.drop (r.byte_ix + 1).toNat = [] := List.drop_of_length_le (by omega)
      rw [load_of_le sh (by omega), hafter, opsFromByte, hdrop]
      dsimp only
      by_cases hsettle : sh.settle = true
      · rw [if_pos hsettle, if_pos hsettle]
        exact .inr ⟨_, rfl, within _ rfl rfl, rfl⟩
      · rw [if_neg hsettle, if_neg hsettle]
        exact .inl ⟨rfl, rfl⟩
  | settle => exact .inl ⟨rfl, by simp only [opsAfterTable, hp]⟩

/-- One step of the counters gives one micro-op of the list. -/
theorem next_gives_op {r : SeqRegs} (hbytes : sh.bytes.length ≤ 7) (h : RegsWithin sh r) :
    ∃ op, r.op = some op ∧
      ((r.next sh = none ∧ opsFromRegs sh r = [op]) ∨
        ∃ r', r.next sh = some r' ∧ RegsWithin sh r' ∧ opsFromRegs sh r = op :: opsFromRegs sh r') := by
  refine ⟨_, List.getElem?_eq_getElem h.sub_lt, ?_⟩
  by_cases hsub : r.sub.toNat + 1 < r.table.length
  · exact .inr ⟨_, next_within sh h hsub⟩
  · have hlast : opsFromRegs sh r = r.table[r.sub.toNat]'h.sub_lt :: opsAfterTable sh r := by
      rw [opsFromRegs, List.drop_eq_getElem_cons h.sub_lt, List.drop_of_length_le (by omega), List.singleton_append]
    rw [hlast]
    obtain ⟨hnone, hnil⟩ | ⟨r', hsome, hr', hops⟩ := next_after sh hbytes h hsub
    · exact .inl ⟨hnone, by rw [hnil]⟩
    · exact .inr ⟨r', hsome, hr', by rw [hops]⟩

/-- After `n` steps the registers have the list from index `n` on still to give, or the list has ended. -/
theorem regsAt_cases (hbytes : sh.bytes.length ≤ 7) (hpos : 0 < sh.bytes.length) (n : Nat) :
    (∃ r, sh.regsAt n = some r ∧ RegsWithin sh r ∧ opsFromRegs sh r = sh.ops.drop n) ∨
      (sh.regsAt n = none ∧ sh.ops.drop n = []) := by
  induction n with
  | zero =>
    exact .inl ⟨_, load_of_lt sh (k := 0) hpos, regsWithin_firstRegs sh (k := 0) hpos _,
      opsFromRegs_firstRegs sh (k := 0) hpos⟩
  | succ n ih =>
    rw [← List.tail_drop]
    obtain ⟨r, hr, hwithin, hops⟩ | ⟨hnone, hnil⟩ := ih
    · have hnext : sh.regsAt (n + 1) = r.next sh := by rw [ProgramShape.regsAt, hr, Option.bind_some]
      rw [hnext, ← hops]
      obtain ⟨op, -, ⟨hnone, hlast⟩ | ⟨r', hsome, hr', hcons⟩⟩ := next_gives_op sh hbytes hwithin
      · exact .inr ⟨hnone, by rw [hlast, List.tail_cons]⟩
      · exact .inl ⟨r', hsome, hr', by rw [hcons, List.tail_cons]⟩
    · exact .inr ⟨by rw [ProgramShape.regsAt, hnone, Option.bind_none], by rw [hnil, List.tail_nil]⟩

theorem opAt_eq_getElem? (hbytes : sh.bytes.length ≤ 7) (hpos : 0 < sh.bytes.length) (n : Nat) :
    sh.opAt n = sh.ops[n]? := by
  rw [ProgramShape.opAt, ← List.head?_drop]
  obtain ⟨r, hr, hwithin, hops⟩ | ⟨hnone, hnil⟩ := regsAt_cases sh hbytes hpos n
  · obtain ⟨op, hop, ⟨-, hlast⟩ | ⟨r', -, -, hcons⟩⟩ := next_gives_op sh hbytes hwithin
    · rw [hr, Option.bind_some, hop, ← hops, hlast, List.head?_cons]
    · rw [hr, Option.bind_some, hop, ← hops, hcons, List.head?_cons]
  · rw [hnone, hnil, Option.bind_none, List.head?_nil]

end

/-- Settles O50: the three programs are the lists of their shapes, and the counters walk through every shape's
list. -/
theorem countersProduceThePrograms : Obligations.CountersProduceThePrograms := by
  refine ⟨fun n => ?_, fun b n => ?_, fun d0 d1 d2 d3 n => ?_⟩
  · rw [← initShape_ops, opAt_eq_getElem? initShape (by decide) (by decide)]
  · rw [← brightShape_ops, opAt_eq_getElem? (brightShape b) (by simp [brightShape]) (by simp [brightShape])]
  · rw [← textShape_ops, opAt_eq_getElem? (textShape d0 d1 d2 d3) (by simp [textShape]) (by simp [textShape])]

end Sys2Proof.Proofs

namespace Sys2Proof.Proofs

open Sys2Proof.Machine

/-! ### The waveform of a trace (R12, D22) -/

/-- The levels after one micro-op, from `(c, d)`. -/
def levelsAfter (op : MicroOp) (c d : Level) : Level × Level := endLevels [op] (c, d)

theorem endLevels_cons (op : MicroOp) (ops : List MicroOp) (c d : Level) :
    endLevels (op :: ops) (c, d) = endLevels ops (levelsAfter op c d) :=
  endLevels_append [op] ops (c, d)

/-- A micro-op that moves a line begins a segment; any other adds its label to the segment that stands. -/
theorem waveform_cons (c d : Level) (us : Nat) (op : MicroOp) (ops : List MicroOp) :
    waveform c d us (op :: ops) =
      if levelsAfter op c d = (c, d) then waveform c d (us + nominalUs [op]) ops
      else ⟨c, d, us⟩ :: waveform (levelsAfter op c d).1 (levelsAfter op c d).2 0 ops := by
  cases op with
  | scl v =>
    have hmove : levelsAfter (.scl v) c d = (c, d) ↔ v = c := by simp [levelsAfter, endLevels]
    simp only [hmove]
    rfl
  | sda v =>
    have hmove : levelsAfter (.sda v) c d = (c, d) ↔ v = d := by simp [levelsAfter, endLevels]
    simp only [hmove]
    rfl
  | wait n => exact (if_pos rfl).symm
  | sample => exact (if_pos rfl).symm

/-- No time passes in a micro-op that moves a line. -/
theorem nominalUs_of_move {op : MicroOp} {c d : Level} (h : levelsAfter op c d ≠ (c, d)) : nominalUs [op] = 0 := by
  cases op with
  | wait n => exact absurd rfl h
  | scl | sda | sample => rfl

/-- A waveform begins with a segment of the levels it starts from. -/
theorem exists_waveform_cons (c d : Level) (us : Nat) (ops : List MicroOp) :
    ∃ us' rest, waveform c d us ops = ⟨c, d, us'⟩ :: rest := by
  induction ops generalizing us with
  | nil => exact ⟨us, [], rfl⟩
  | cons op ops ih =>
    rw [waveform_cons]
    by_cases hmove : levelsAfter op c d = (c, d)
    · rw [if_pos hmove]
      exact ih _
    · rw [if_neg hmove]
      exact ⟨us, _, rfl⟩

/-- What more micro-ops add goes on from the levels the first ones lead to. -/
theorem exists_waveform_append (c d : Level) (us : Nat) (ops : List MicroOp) :
    ∃ before us', ∀ more, waveform c d us (ops ++ more) =
      before ++ waveform (endLevels ops (c, d)).1 (endLevels ops (c, d)).2 us' more := by
  induction ops generalizing c d us with
  | nil => exact ⟨[], us, fun _ => rfl⟩
  | cons op ops ih =>
    by_cases hmove : levelsAfter op c d = (c, d)
    · obtain ⟨before, us', h⟩ := ih c d (us + nominalUs [op])
      refine ⟨before, us', fun more => ?_⟩
      rw [List.cons_append, waveform_cons, if_pos hmove, h, endLevels_cons, hmove]
    · obtain ⟨before, us', h⟩ := ih (levelsAfter op c d).1 (levelsAfter op c d).2 0
      refine ⟨⟨c, d, us⟩ :: before, us', fun more => ?_⟩
      rw [List.cons_append, waveform_cons, if_neg hmove, h, endLevels_cons, List.cons_append]

/-- A segment ends only where the outputs change. -/
theorem waveform_isChain (c d : Level) (us : Nat) (ops : List MicroOp) :
    (waveform c d us ops).IsChain fun g h => (g.scl, g.sda) ≠ (h.scl, h.sda) := by
  induction ops generalizing c d us with
  | nil => exact List.isChain_singleton _
  | cons op ops ih =>
    rw [waveform_cons]
    by_cases hmove : levelsAfter op c d = (c, d)
    · rw [if_pos hmove]
      exact ih _ _ _
    · obtain ⟨us', rest, hrest⟩ := exists_waveform_cons (levelsAfter op c d).1 (levelsAfter op c d).2 0 ops
      have htail := ih (levelsAfter op c d).1 (levelsAfter op c d).2 0
      rw [hrest] at htail
      rw [if_neg hmove, hrest]
      exact htail.cons_cons (Ne.symm hmove)

theorem waveform_sum (c d : Level) (us : Nat) (ops : List MicroOp) :
    ((waveform c d us ops).map Segment.us).sum = us + nominalUs ops := by
  induction ops generalizing c d us with
  | nil => rfl
  | cons op ops ih =>
    have hsum : nominalUs (op :: ops) = nominalUs [op] + nominalUs ops := nominalUs_append [op] ops
    rw [waveform_cons, hsum]
    by_cases hmove : levelsAfter op c d = (c, d)
    · rw [if_pos hmove, ih, Nat.add_assoc]
    · rw [if_neg hmove, List.map_cons, List.sum_cons, ih, nominalUs_of_move hmove, Nat.zero_add]

/-- The events of the host are no micro-ops. -/
theorem microOps_filter_isSome (trace : List Event) :
    microOps (trace.filter fun e => e.microOp.isSome) = microOps trace := by
  rw [microOps, microOps, List.filterMap_filter]
  congr
  funext e
  cases h : e.microOp <;> simp

/-- Where the waveform of a trace ends, and how more events go on from there. -/
theorem exists_traceWaveform (trace : List Event) :
    ∃ (before : List Segment) (c d : Level) (us : Nat),
      (c, d) = endLevels (microOps trace) (1, 1) ∧ traceWaveform trace = before ++ [⟨c, d, us⟩] ∧
        ∀ e, traceWaveform (trace ++ [e]) = before ++ waveform c d us (microOps [e]) := by
  obtain ⟨before, us, h⟩ := exists_waveform_append 1 1 0 (microOps trace)
  refine ⟨before, _, _, us, rfl, ?_, fun e => ?_⟩
  · rw [traceWaveform, ← List.append_nil (microOps trace), h, waveform, List.append_nil]
  · rw [traceWaveform, microOps_append, h]

/-- A write of the level that stands changes nothing; a write that changes a line adds a segment. -/
theorem waveform_write (c d : Level) (us : Nat) :
    (∀ v, waveform c d us [.scl v] = if v = c then [⟨c, d, us⟩] else [⟨c, d, us⟩] ++ [⟨v, d, 0⟩]) ∧
      ∀ v, waveform c d us [.sda v] = if v = d then [⟨c, d, us⟩] else [⟨c, d, us⟩] ++ [⟨c, v, 0⟩] :=
  ⟨fun _ => rfl, fun _ => rfl⟩

/-- Settles O59: a waveform goes on from its last segment, so one more event acts on that segment alone. -/
theorem waveformOfATrace : Obligations.WaveformOfATrace := by
  refine ⟨rfl, fun trace => ?_⟩
  obtain ⟨before, c, d, us, hlevels, hwave, hmore⟩ := exists_traceWaveform trace
  refine ⟨before, c, d, us, hwave, hlevels, fun e => ?_, waveform_isChain 1 1 0 _,
    (waveform_sum 1 1 0 _).trans (Nat.zero_add _), congrArg (waveform 1 1 0) (microOps_filter_isSome trace)⟩
  rw [hmore, hwave]
  cases e with
  | scl v =>
    rw [show microOps [.scl v] = [.scl v] from rfl, (waveform_write c d us).1]
    dsimp only
    split_ifs
    · rfl
    · exact (List.append_assoc _ _ _).symm
  | sda v =>
    rw [show microOps [.sda v] = [.sda v] from rfl, (waveform_write c d us).2]
    dsimp only
    split_ifs
    · rfl
    · exact (List.append_assoc _ _ _).symm
  | wait | sample | acceptBrightness | acceptText | response => rfl

/-! ### `D` and `d` (R151, D15) -/

theorem lowerD_eq_dot_iff (c : Byte) : lowerD c = Config.dotChar ↔ c = Config.dotChar := by
  unfold lowerD
  split
  · next h =>
    subst h
    decide
  · rfl

section

variable {rom : List Host.Cell} (h : fontRomWf rom = true)
include h

theorem scanText_lowerD (text : List Byte) (buf : DigitBuffer) (cursor : BitVec 3) :
    scanText rom (text.map lowerD) buf cursor = scanText rom text buf cursor := by
  induction text generalizing buf cursor with
  | nil => rfl
  | cons c text ih =>
    simp only [List.map_cons, scanText, lowerD_eq_dot_iff, romRead_lowerD h, ih]

theorem assembleText_lowerD (text : List Byte) : assembleText rom (text.map lowerD) = assembleText rom text :=
  scanText_lowerD h text _ _

theorem romRead_upperD_isSome : (romRead rom 0x44).isSome = true :=
  (romRead_isSome_iff_mem_fontKeys ((fontRomWf_iff rom).1 h).1 0x44).2 (by decide)

end

section

variable {s : State} (h : fontRomWf s.rom = true)
include h

theorem returnPattern_lowerD : returnPattern 0x64 s = returnPattern 0x44 s := by
  rw [returnPattern, returnPattern, ((fontRomWf_iff s.rom).1 h).2]

theorem exec_encode_lowerD : exec (.encode 0x64) s = exec (.encode 0x44) s :=
  congrArg Host.Outcome.next (returnPattern_lowerD h)

theorem exec_assemble_lowerD (text : List Byte) : exec (.assemble (text.map lowerD)) s = exec (.assemble text) s := by
  show execAssemble (text.map lowerD) s = execAssemble text s
  rw [execAssemble, execAssemble, assembleText_lowerD h]

/-- SET_TEXT leaves the text itself in the latch and in the trace; the rest is the same. -/
theorem exec_setText_lowerD (text : List Byte) :
    ∃ t t', exec (.setText (text.map lowerD)) s = .next t ∧ exec (.setText text) s = .next t' ∧
      { t with text_l := t'.text_l, trace := t'.trace } = t' := by
  have ha := assembleText_lowerD h text
  by_cases hd : s.drv_state = .idle
  · by_cases hok : (assembleText s.rom text).code = .ok
    · refine ⟨_, _, exec_setText_of_ok hd (by rw [ha]; exact hok), exec_setText_of_ok hd hok, ?_⟩
      rw [ha]
      rfl
    · refine ⟨_, _, exec_setText_of_error hd (by rw [ha]; exact hok), exec_setText_of_error hd hok, ?_⟩
      rw [ha]
      rfl
  · exact ⟨s, s, exec_setText_busy hd _, exec_setText_busy hd _, rfl⟩

end

/-- Settles O60: the scan reads the ROM alone of a character, and the ROM reads `D` and `d` alike. -/
theorem upperAndLowerDHaveOnePattern : Obligations.UpperAndLowerDHaveOnePattern := by
  refine ⟨fun rom h => ⟨romRead_upperD_isSome h, ((fontRomWf_iff rom).1 h).2.symm, assembleText_lowerD h⟩,
    fun s hinv => ?_⟩
  have h := hinv.rom_wf
  exact ⟨exec_encode_lowerD h, exec_encode_lowerD h,
    fun text => ⟨exec_assemble_lowerD h text, exec_setText_lowerD h text⟩⟩

/-! ### The environment contract (R58 to R62) -/

section

variable {a : Assumed} {x y : Device}

theorem deviceAfter_cons {frame : List Byte} (frames : List (List Byte))
    (hseen : stopHasEdge frame = true ∨ a.endSeen = true) :
    deviceAfter a (frame :: frames) x y ↔ ∃ m, frameEffect a frame x m ∧ deviceAfter a frames m y := by
  rw [deviceAfter, if_pos (by simpa using hseen)]

theorem deviceAfter_singleton {frame : List Byte} (hseen : stopHasEdge frame = true ∨ a.endSeen = true) :
    deviceAfter a [frame] x y ↔ frameEffect a frame x y := by
  rw [deviceAfter_cons [] hseen]
  constructor
  · rintro ⟨m, hm, rfl⟩
    exact hm
  · exact fun hm => ⟨y, hm, rfl⟩

theorem frameEffect_blank : frameEffect a [0x80] x y ↔
    y.displayOn = false ∧ y.digits = x.digits ∧ y.autoInc = x.autoInc := by
  simp [frameEffect]

theorem frameEffect_autoinc : frameEffect a [0x40] x y ↔
    y.autoInc = true ∧ y.displayOn = x.displayOn ∧ y.digits = x.digits := by
  simp [frameEffect]

/-- No brightness byte is BLANK or SET_AUTOINC, and that of level 8 alone is UNBLANK. -/
theorem brightByte_ne (b : BitVec 3) :
    brightByte b ≠ 0x80 ∧ brightByte b ≠ 0x40 ∧ (brightByte b ≠ 0x8F ↔ b ≠ 7) := by
  revert b
  decide

theorem frameEffect_brightness (b : BitVec 3) : frameEffect a [brightByte b] x y ↔
    y.displayOn = true ∧ y.autoInc = x.autoInc ∧
      (b ≠ 7 ∨ a.unblankIsLevel8 = true → y.brightness = b) := by
  obtain ⟨hblank, hautoinc, hunblank⟩ := brightByte_ne b
  simp only [frameEffect]
  rw [if_neg hblank, if_neg hautoinc, if_pos (brightByte_high b), brightByte_low, hunblank]

theorem frameEffect_text (hauto : x.autoInc = true) (d0 d1 d2 d3 : Byte) :
    frameEffect a [0xC0, d0, d1, d2, d3] x y ↔
      y.digits = ⟨d0, d1, d2, d3⟩ ∧ y.displayOn = x.displayOn ∧ y.autoInc = x.autoInc := by
  simp [frameEffect, hauto]

theorem stopHasEdge_text (d0 d1 d2 : Byte) {d3 : Byte} (h : d3.msb = false) :
    stopHasEdge [0xC0, d0, d1, d2, d3] = true := by
  simp [stopHasEdge, h]

/-- What is lit at a position: the bits of its data byte, while the output is enabled. -/
theorem lit_iff {d0 d1 d2 d3 d : Byte} (hdigits : y.digits = ⟨d0, d1, d2, d3⟩) {k : Nat} (seg : DigitSegment)
    (hk : [d0, d1, d2, d3][k]? = some d) :
    y.lit k seg = true ↔ y.displayOn = true ∧ d.getLsbD seg.bit = true := by
  have hget : y.digits.get k = d := by
    rw [hdigits]
    match k with
    | 0 | 1 | 2 | 3 => simpa [DigitBuffer.get] using hk
    | k + 4 => simp at hk
  simp [Device.lit, lights, hget]

theorem blanked_of_off (h : y.displayOn = false) : y.blanked = true := by
  simp [Device.blanked, Device.lit, h]

theorem get_clear (k : Nat) : DigitBuffer.clear.get k = 0 := by
  match k with
  | 0 | 1 | 2 | 3 | k + 4 => rfl

theorem blanked_of_clear (h : y.digits = DigitBuffer.clear) : y.blanked = true := by
  simp [Device.blanked, Device.lit, lights, h, get_clear]

/-- Initialization switches the display on and selects auto-increment. -/
theorem deviceAfter_init (frames : List (List Byte)) (hseen : a.endSeen = true) :
    deviceAfter a ([0x8F] :: [0x40] :: frames) x y →
      ∃ m, m.displayOn = true ∧ m.autoInc = true ∧ deviceAfter a frames m y := by
  intro h
  obtain ⟨m, hm, h⟩ := (deviceAfter_cons _ (.inr hseen)).1 h
  obtain ⟨n, hn, h⟩ := (deviceAfter_cons _ (.inr hseen)).1 h
  obtain ⟨hon, -, -⟩ := (frameEffect_brightness 7).1 hm
  obtain ⟨hauto, hkeep, -⟩ := frameEffect_autoinc.1 hn
  exact ⟨n, hkeep.trans hon, hauto, h⟩

/-- After a text frame in auto-increment mode the digits are its data bytes. -/
theorem deviceAfter_text {d0 d1 d2 d3 : Byte} (hauto : x.autoInc = true) (hd3 : d3.msb = false)
    (h : deviceAfter a [[0xC0, d0, d1, d2, d3]] x y) :
    y.digits = ⟨d0, d1, d2, d3⟩ ∧ y.displayOn = x.displayOn ∧ y.autoInc = x.autoInc :=
  (frameEffect_text hauto d0 d1 d2 d3).1 ((deviceAfter_singleton (.inl (stopHasEdge_text d0 d1 d2 hd3))).1 h)

theorem deviceAfter_blank (hseen : a.endSeen = true) (h : deviceAfter a [[0x80]] x y) :
    y.displayOn = false ∧ y.digits = x.digits ∧ y.blanked = true := by
  obtain ⟨hoff, hdigits, -⟩ := frameEffect_blank.1 ((deviceAfter_singleton (.inr hseen)).1 h)
  exact ⟨hoff, hdigits, blanked_of_off hoff⟩

theorem deviceAfter_brightness (hseen : a.endSeen = true) {b : BitVec 3} (hb : b ≠ 7 ∨ a.unblankIsLevel8 = true)
    (h : deviceAfter a [[brightByte b]] x y) : y.displayOn = true ∧ y.brightness = b := by
  obtain ⟨hon, -, hlevel⟩ := (frameEffect_brightness b).1 ((deviceAfter_singleton (.inr hseen)).1 h)
  exact ⟨hon, hlevel hb⟩

end

/-- Settles O52: what each frame does, and what is lit of the digits it leaves. -/
theorem deviceShowsTheTextOfTheFrame : Obligations.DeviceShowsTheTextOfTheFrame := by
  refine ⟨fun _ => rfl, fun a x y d0 d1 d2 d3 => ⟨fun hseen h => ?_, fun h => ?_, fun hauto hd3 h => ?_,
    fun hauto h => ?_, fun hseen hd3 h => ?_, deviceAfter_blank, fun hseen b hb => deviceAfter_brightness hseen hb⟩⟩
  · obtain ⟨m, hon, hauto, rfl⟩ := deviceAfter_init [] hseen h
    exact ⟨hon, hauto⟩
  · exact (frameEffect_autoinc.1 ((deviceAfter_singleton (.inl rfl)).1 h)).1
  · obtain ⟨hdigits, hon, -⟩ := deviceAfter_text hauto hd3 h
    exact ⟨hdigits, hon, fun k d seg hk => by rw [lit_iff hdigits seg hk, hon]⟩
  · exact blanked_of_clear (deviceAfter_text hauto rfl h).1
  · obtain ⟨m, hon, hauto, h⟩ := deviceAfter_init _ hseen h
    obtain ⟨hdigits, hkeep, hkeepAuto⟩ := deviceAfter_text hauto hd3 h
    have hy := hkeep.trans hon
    exact ⟨hdigits, hy, hkeepAuto.trans hauto, fun k d seg hk => by
      rw [lit_iff hdigits seg hk, hy, eq_self_iff_true, true_and]⟩

end Sys2Proof.Proofs
